-- ==== Sys2Proof/Word.lean ====
section
/-! DEFINITION. The word types of the SE416 and the numbers of its stations, lines, groups, pairs,
inputs and slots. Widths are those of spec/00_scope.md Table 7-1 and of the payload layouts of
spec/10_message_formats_and_codes.md (R171). -/

namespace Sys2Proof

/-- One byte of a frame (R165). -/
abbrev Byte := BitVec 8

/-- A 16-bit number: a lease count, a tag, a capture offset, a discard counter (R171). -/
abbrev Half := BitVec 16

/-- A PULSE width or a TRAIN width or period: a 24-bit number (Table 4-4). -/
abbrev Span := BitVec 24

/-- A device time, or a distance between two device times: numbers mod 2^32 (00_scope.md 5.2). -/
abbrev Time := BitVec 32

/-- A line mask: bit `i` stands for line `Li` (R171). -/
abbrev LineMask := BitVec 16

/-- A set of stations: bit `n` stands for station `n`. -/
abbrev StationSet := BitVec 4

/-- Station `n` is the station on port `Pn` (00_scope.md 5.4). -/
abbrev StationNo := Fin 4

/-- Output lines L0 to L15. -/
abbrev LineNo := Fin 16

/-- Groups G0 to G3; group `g` is the lines `4g` to `4g+3`. -/
abbrev GroupNo := Fin 4

/-- Pairs 0 to 7; pair `k` is the primary `L2k` and the partner `L2k+1`. -/
abbrev PairNo := Fin 8

/-- Capture inputs C0 to C7. -/
abbrev InputNo := Fin 8

/-- Slots 0 to 127 of the order store (R55). -/
abbrev SlotNo := Fin 128

end Sys2Proof
end

