-- ==== Sys2Proof/Syntax.lean ====
section
/-! DEFINITION. The commands of the SE416: one constructor for each row of spec/opcode_table.json, in the
table's order. A request row (`bind` to `unknownRequest`) is the event "the request at the head of port
`p`'s request queue is taken" (R155): its fields stand in the queued frame, so the row's one operand is
the port. The rows after them are the events at the receive line, the transmitter, the clocks and the
input pins; their operands are what the event shows (a data byte, a level, a number). -/

namespace Sys2Proof

/-- A pin level as sampled (11_pins: every input is sampled at rising edges of REFCLK). -/
inductive Level where
  | low
  | high
deriving DecidableEq, Repr

/-- The two guard inputs, active low (00_scope.md 5.3). -/
inductive GuardInput where
  | ga
  | gb
deriving DecidableEq, Repr

/-- One command of the block. -/
inductive Instr where
  /-- BIND (R138) is taken on port `p`. -/
  | bind (p : StationNo)
  /-- UNBIND (R141) is taken on port `p`. -/
  | unbind (p : StationNo)
  /-- KEEPALIVE (R140) is taken on port `p`. -/
  | keepalive (p : StationNo)
  /-- PORT_STATUS (R162) is taken on port `p`. -/
  | portStatus (p : StationNo)
  /-- TIME_READ (R13) is taken on port `p`. -/
  | timeRead (p : StationNo)
  /-- TIME_START in mode IMMEDIATE (R6) is taken on port `p`. -/
  | timeStartImmediate (p : StationNo)
  /-- TIME_START in mode ON_MARK (R7) is taken on port `p`. -/
  | timeStartOnMark (p : StationNo)
  /-- TIME_STOP (R12) is taken on port `p`. -/
  | timeStop (p : StationNo)
  /-- CLAIM (R38) is taken on port `p`. -/
  | claim (p : StationNo)
  /-- RELEASE (R49) is taken on port `p`. -/
  | release (p : StationNo)
  /-- SHAPE (R32) is taken on port `p`. -/
  | shape (p : StationNo)
  /-- LINE_READ (R34) is taken on port `p`. -/
  | lineRead (p : StationNo)
  /-- PAIR with operation BIND (R29) is taken on port `p`. -/
  | pairBind (p : StationNo)
  /-- PAIR with operation UNBIND (R29) is taken on port `p`. -/
  | pairUnbind (p : StationNo)
  /-- POST (R64) is taken on port `p`. -/
  | post (p : StationNo)
  /-- CANCEL with mode NOW (R97) is taken on port `p`. -/
  | cancelNow (p : StationNo)
  /-- CANCEL with mode AT_END (R98) is taken on port `p`. -/
  | cancelAtEnd (p : StationNo)
  /-- REVISE (R94) is taken on port `p`. -/
  | revise (p : StationNo)
  /-- FLUSH (R100) is taken on port `p`. -/
  | flush (p : StationNo)
  /-- ORDER_READ (R79) is taken on port `p`. -/
  | orderRead (p : StationNo)
  /-- GUARD_MAP (R104) is taken on port `p`. -/
  | guardMap (p : StationNo)
  /-- REARM (R112) is taken on port `p`. -/
  | rearm (p : StationNo)
  /-- SUBSCRIBE (R119) is taken on port `p`. -/
  | subscribe (p : StationNo)
  /-- UNSUBSCRIBE (R120) is taken on port `p`. -/
  | unsubscribe (p : StationNo)
  /-- READ_CAPTURES (R127) is taken on port `p`. -/
  | readCaptures (p : StationNo)
  /-- A request whose code names no request (R168) is taken on port `p`. -/
  | unknownRequest (p : StationNo)
  /-- The second check byte `data` of a frame is received on port `p` (R149). -/
  | frameComplete (p : StationNo) (data : Byte)
  /-- A character that ends the frame in assembly early is received on port `p` (R148). -/
  | frameEndEarly (p : StationNo) (data : Byte) (marker : Bool) (stop : Bool)
  /-- A break on the receive line of port `p` is detected (R153). -/
  | lineBreak (p : StationNo)
  /-- The receive line of port `p` is sampled high after a break (R152). -/
  | breakEnd (p : StationNo)
  /-- The transmitter of port `p` ends a frame (R158). -/
  | transmitEnd (p : StationNo)
  /-- The end of a tick (R1). -/
  | tick
  /-- The orders due at the new T are fired (R73). -/
  | firing
  /-- The gap of pair `k` reaches its end time (R25). -/
  | gapCompletion (k : PairNo)
  /-- A rising edge of Mark is recognised (R8). -/
  | markRisingEdge
  /-- The arm timer of an ARMED timebase is exhausted (R9). -/
  | armTimerExpiry
  /-- A lease unit of the lease clock ends (R15). -/
  | leaseBoundary
  /-- The lease timer of station `n` reaches 0 (R142). -/
  | leaseExpiry (n : StationNo)
  /-- The wait deadlines that stand at 0 expire (R45). -/
  | waitExpiry
  /-- Guard input `g` is sampled low after a sample high (R105). -/
  | guardActivation (g : GuardInput)
  /-- Guard input `g` is sampled high after a sample low (R102). -/
  | guardDeactivation (g : GuardInput)
  /-- A sample of capture input `i` shows `level` (R116). -/
  | captureEdge (i : InputNo) (level : Level)
  /-- The sample of capture input `i` at which its filter closes shows `level` (R117). -/
  | filterClose (i : InputNo) (level : Level)
  /-- Power-on reset begins (R177). -/
  | resetBegin
  /-- Power-on reset ends, with the RATE straps and the first samples of GA and GB as given (R177, R178). -/
  | powerOnResetEnd (rate1 : Level) (rate0 : Level) (ga : Level) (gb : Level)
  /-- A character that neither completes nor ends a frame is received on port `p` (R148). -/
  | characterReceived (p : StationNo) (data : Byte) (marker : Bool) (stop : Bool)
deriving DecidableEq, Repr

end Sys2Proof
end

