-- ==== Sys2Proof/Decode.lean ====
section
/-! DEFINITION. The command that a word spells by the bits of spec/opcode_table.json. No row of this table
gives bits ("fields" is empty and "fixed" is absent in all 46 rows), so no word spells a command. A
request's own bytes are read by Machine/Operands.lean when the request is taken. -/

namespace Sys2Proof

/-- The command spelt by the `nbits` bits `w`: none, since the table gives no row bits. -/
def decodeTableWord (_nbits _w : Nat) : Option Instr := none

end Sys2Proof
end

