-- ==== Sys2Proof/Machine/State.lean ====
section
/-! DEFINITION. The state of the SE416 as plain data: every record of spec/00_scope.md Table 3-1 and of the
chapters' own tables, the queue of waiting commands, the reasons a step can stop, and the state after
power-on reset. -/

namespace Sys2Proof.Machine

/-- The timebase states (Table 1-1). -/
inductive TimebaseState where
  | halted
  | armed
  | running
deriving DecidableEq, Repr

/-- The timebase record (Table 1-1). -/
structure Timebase where
  /-- HALTED, ARMED or RUNNING. -/
  state : TimebaseState
  /-- Device time T. -/
  t : Time
  /-- The divisor exponent. -/
  d : Nat
  /-- The horizon exponent. -/
  h : Nat
  /-- The arming station, or none. -/
  arming : Option StationNo
  /-- The arm timer: stopped, or the lease units remaining. -/
  armTimer : Option Half
deriving DecidableEq, Repr

/-- How the asserted state maps to a pin level (Table 2-1). -/
inductive Polarity where
  | normal
  | inverted
deriving DecidableEq, Repr

/-- The line record (Table 2-1), with the fact that R18 needs: whether a claim naming the line has been
granted since power-on reset. -/
structure LineRec where
  /-- ASSERTED is true. -/
  asserted : Bool
  /-- NORMAL or INVERTED. -/
  polarity : Polarity
  /-- The safe level, an asserted state. -/
  safe : Bool
  /-- Drive ON is true. -/
  driveOn : Bool
  /-- The claim that holds the line, or free. -/
  holder : Option Byte
  /-- A claim naming the line has been granted since power-on reset (R18). -/
  granted : Bool
deriving DecidableEq, Repr

/-- The states of a pair unit (Table 2-3); a gap state holds its end time. -/
inductive PairState where
  | unbound
  | bothOff
  | primaryOn
  | partnerOn
  | gapToPrimary (endTime : Time)
  | gapToPartner (endTime : Time)
deriving DecidableEq, Repr

/-- The pair unit record (Table 2-3). -/
structure PairUnit where
  /-- The state, with the end time of a gap. -/
  state : PairState
  /-- The length of the next gap started, in ticks. -/
  gap : Byte
deriving DecidableEq, Repr

/-- The states of a group (Table 2-6). -/
inductive GroupState where
  | normal
  | tripped
deriving DecidableEq, Repr

/-- The guard inputs whose activation trips a group (Table 6-1). -/
inductive GuardMap where
  | none
  | ga
  | gb
  | either
deriving DecidableEq, Repr

/-- The group record (Table 2-6). -/
structure GroupRec where
  /-- NORMAL or TRIPPED. -/
  state : GroupState
  /-- The guard map. -/
  map : GuardMap
deriving DecidableEq, Repr

/-- A release action or loss action (R30). -/
inductive LineAction where
  | hold
  | safe
deriving DecidableEq, Repr

/-- The fields of a claim record (Table 3-1) that stand for the claim's life. -/
structure Claim where
  /-- The claim id, 1 to 255. -/
  id : Byte
  /-- The station that sent the CLAIM. -/
  station : StationNo
  /-- The lines the claim names. -/
  lines : LineMask
  /-- The loss action. -/
  loss : LineAction
deriving DecidableEq, Repr

/-- A WAITING claim: its record and its wait deadline. Its arrival position is its place in the list. -/
structure WaitingClaim where
  /-- The claim. -/
  claim : Claim
  /-- Lease units remaining. -/
  deadline : Half
deriving DecidableEq, Repr

/-- The action of a STEP (Table 4-3). -/
inductive StepAction where
  | assert
  | deassert
  | invert
deriving DecidableEq, Repr

/-- A staged revision of a train (R94). -/
structure Revision where
  /-- The new width. -/
  width : Span
  /-- The new period. -/
  period : Span
deriving DecidableEq, Repr

/-- The fields of a TRAIN (Table 4-3, Table 5-1). -/
structure TrainRec where
  /-- Ticks asserted from each period start. -/
  width : Span
  /-- Ticks from one period start to the next. -/
  period : Span
  /-- Periods still to be counted; absent when posted with count 0. -/
  remaining : Option Half
  /-- The pending revision. -/
  pending : Option Revision
  /-- Whether the train has made its first period start. -/
  begun : Bool
deriving DecidableEq, Repr

/-- The kind of an order with the target and the fields present for that kind (Table 4-3). -/
inductive OrderBody where
  | step (line : LineNo) (action : StepAction)
  | pulse (line : LineNo) (width : Span)
  | train (line : LineNo) (train : TrainRec)
  | pattern (group : GroupNo) (mask : BitVec 4) (levels : BitVec 4)
deriving DecidableEq, Repr

/-- The trigger of an ON_CAPTURE order. -/
structure CaptureTrigger where
  /-- The capture input. -/
  input : InputNo
  /-- Ticks from the edge time to the due time. -/
  offset : Half
deriving DecidableEq, Repr

/-- The phase of an order: present for a SCHEDULED PULSE or TRAIN (Table 4-3). -/
inductive Phase where
  | absent
  | leading
  | trailing
deriving DecidableEq, Repr

/-- The state of an order; a SCHEDULED order has its next edge time and its phase. -/
inductive OrderState where
  | armed
  | scheduled (next : Time) (phase : Phase)
deriving DecidableEq, Repr

/-- What becomes of an order whose due time is late (R68, R130). -/
inductive LatePolicy where
  | refuse
  | fire
deriving DecidableEq, Repr

/-- The notify setting (R77, R78). -/
inductive Notify where
  | none
  | first
  | atEnd
  | both
deriving DecidableEq, Repr

/-- The order record (Table 4-3). Its handle is the slot it stands in and that slot's generation (R56). -/
structure Order where
  /-- The station that posted it. -/
  station : StationNo
  /-- Kind, target and the kind's own fields. -/
  body : OrderBody
  /-- The capture trigger, or none for ABSOLUTE and RELATIVE. -/
  trigger : Option CaptureTrigger
  /-- ARMED or SCHEDULED. -/
  state : OrderState
  /-- Set by CANCEL AT_END. -/
  ending : Bool
  /-- Whether FIRED has been decided (R77). -/
  started : Bool
  /-- The late policy. -/
  late : LatePolicy
  /-- The notify setting. -/
  notify : Notify
  /-- The tag. -/
  tag : Half
  /-- The post sequence (R61). -/
  postSeq : Time
deriving DecidableEq, Repr

/-- A slot of the order store (R55, R56). -/
structure Slot where
  /-- The generation the slot holds, free or occupied. -/
  generation : Byte
  /-- The order in the slot, or free. -/
  order : Option Order
deriving DecidableEq, Repr

/-- The edges setting of a capture input (Table 7-1). -/
inductive Edges where
  | rising
  | falling
  | both
deriving DecidableEq, Repr

/-- The direction of a capture edge as seen on the pin. -/
inductive Direction where
  | rising
  | falling
deriving DecidableEq, Repr

/-- The settings of a capture input (Table 7-1). -/
structure InputSettings where
  /-- Which transitions start an edge. -/
  edges : Edges
  /-- Ticks the new level must stand. -/
  filter : Byte
deriving DecidableEq, Repr

/-- The edge in filter (Table 7-1). -/
structure EdgeInFilter where
  /-- The direction. -/
  direction : Direction
  /-- The edge time e. -/
  edgeTime : Time
  /-- The new level. -/
  newLevel : Level
deriving DecidableEq, Repr

/-- The state of a capture input (R114) with its reference level. -/
inductive InputState where
  | idle
  | watching (reference : Option Level)
  | filtering (reference : Level) (edge : EdgeInFilter)
deriving DecidableEq, Repr

/-- The input record (Table 7-1). -/
structure InputRec where
  /-- Edges and filter, while the input has subscribers. -/
  settings : Option InputSettings
  /-- The stations subscribed. -/
  subscribers : StationSet
  /-- IDLE, WATCHING or FILTERING. -/
  state : InputState
deriving DecidableEq, Repr

/-- The capture journal record (Table 7-3). -/
structure JournalRec where
  /-- The capture sequence. -/
  seq : Half
  /-- The input whose edge was accepted. -/
  input : InputNo
  /-- The direction. -/
  direction : Direction
  /-- The edge time e. -/
  edgeTime : Time
  /-- The stations that have yet to read the record. -/
  readers : StationSet
deriving DecidableEq, Repr

/-- The session states (Table 8-1). -/
inductive SessionState where
  | unbound
  | bound
  | lapsed
deriving DecidableEq, Repr

/-- The station record (Table 8-1). -/
structure StationRec where
  /-- UNBOUND, BOUND or LAPSED. -/
  session : SessionState
  /-- The session number, in BOUND and LAPSED. -/
  number : Option Byte
  /-- The session counter of the port. -/
  counter : Byte
  /-- The lease period, in BOUND. -/
  leasePeriod : Option Half
  /-- The lease timer, in BOUND. -/
  leaseTimer : Option Half
  /-- The quota, 0 outside BOUND. -/
  quota : Byte
deriving DecidableEq, Repr

/-- The states of a port's receiver (Table 9-3). -/
inductive Receiver where
  | hunt
  | header
  | body
  | check
  | inBreak
deriving DecidableEq, Repr

/-- A request frame in the request queue, its check bytes dropped (R165). -/
structure RequestFrame where
  /-- The request sequence. -/
  sequence : BitVec 6
  /-- The session byte. -/
  session : Byte
  /-- The request code. -/
  code : Byte
  /-- The payload. -/
  payload : List Byte
deriving DecidableEq, Repr

/-- The outcomes of a reply (Table 10-4). -/
inductive ReplyCode where
  | ok
  | queued
  | okLate
  | badFormat
  | badValue
  | unknownRequest
  | notBound
  | staleSession
  | bound
  | heldElsewhere
  | notHolder
  | overlap
  | waitFull
  | paired
  | timebaseState
  | inUse
  | quota
  | late
  | beyondHorizon
  | unknownOrder
  | notPeriodic
  | ending
  | tripped
  | guardActive
  | conflict
  | noSubscription
deriving DecidableEq, Repr

/-- A reply (R166); its frame is `Reply.frame`. -/
structure Reply where
  /-- The sequence of the request. -/
  sequence : BitVec 6
  /-- The session byte of the request, as received. -/
  session : Byte
  /-- The request code, as received. -/
  code : Byte
  /-- The outcome. -/
  outcome : ReplyCode
  /-- The payload. -/
  payload : List Byte
deriving DecidableEq, Repr

/-- The order kinds, as a FIRED notice names them (Table 10-5). -/
inductive OrderKind where
  | step
  | pulse
  | train
  | pattern
deriving DecidableEq, Repr

/-- The reasons of an ENDED notice (R78). -/
inductive EndReason where
  | complete
  | cancelled
  | late
  | suppressed
deriving DecidableEq, Repr

/-- The handle of an order: slot and generation (R56). -/
structure Handle where
  /-- The slot. -/
  slot : SlotNo
  /-- The generation. -/
  generation : Byte
deriving DecidableEq, Repr

/-- A notice as formed when it is appended: kind and payload (R167, Table 10-11). -/
inductive Notice where
  | fired (handle : Handle) (tag : Half) (kind : OrderKind) (edgeTime : Time)
  | ended (handle : Handle) (tag : Half) (reason : EndReason) (edgeTime : Time)
  | suppressed (handle : Handle) (tag : Half) (edgeTime : Time)
  | granted (id : Byte) (lines : LineMask)
  | waitExpired (id : Byte) (lines : LineMask)
  | trip (group : GroupNo) (input : GuardInput)
  | tripCleared (group : GroupNo)
  | timeStarted (t : Time) (d : Nat) (h : Nat)
  | markTimeout (t : Time) (d : Nat) (h : Nat)
  | captureReady (seq : Half) (input : InputNo)
deriving DecidableEq, Repr

/-- The transmitter (Table 9-1): idle, sending a frame with the character reached, or finishing the
character of a frame that a break has cut (R153). -/
inductive Transmitter where
  | idle
  | sending (frame : List Byte) (reached : Nat)
  | cut (frame : List Byte) (reached : Nat)
deriving DecidableEq, Repr

/-- The six discard counters of a port (Table 9-4). -/
structure Discards where
  /-- FRAMING. -/
  framing : Half
  /-- SHORT. -/
  short : Half
  /-- LONG. -/
  long : Half
  /-- CHECK. -/
  check : Half
  /-- KIND. -/
  kind : Half
  /-- FULL. -/
  full : Half
deriving DecidableEq, Repr

/-- The port record (Table 9-1). -/
structure PortRec where
  /-- The receiver state. -/
  receiver : Receiver
  /-- The frame being assembled. -/
  buffer : List Byte
  /-- The request queue, oldest first. -/
  requests : List RequestFrame
  /-- The reply slot. -/
  replySlot : Option Reply
  /-- The last request: its sequence and code. -/
  lastRequest : Option (BitVec 6 × Byte)
  /-- The reply cache. -/
  replyCache : Option Reply
  /-- The notice queue, oldest first. -/
  notices : List Notice
  /-- The notice lost count. -/
  noticesLost : Byte
  /-- The notice sequence. -/
  noticeSeq : BitVec 6
  /-- The transmitter. -/
  transmitter : Transmitter
  /-- The discard counters. -/
  discards : Discards
deriving DecidableEq, Repr

/-- The state of the SE416 and its queue of waiting commands. -/
structure State where
  /-- The commands that wait, first in first out (the model's own). -/
  pending : List Instr
  /-- How many free values have been used (the model's own, assumption 10). -/
  freeChoices : Nat
  /-- Power-on reset is in progress (R177). -/
  inReset : Bool
  /-- The timebase record. -/
  tb : Timebase
  /-- Lease units counted since the end of power-on reset (R15). -/
  leaseClock : Nat
  /-- The 16 line records. -/
  lines : Vector LineRec 16
  /-- The 8 pair units. -/
  pairs : Vector PairUnit 8
  /-- The 4 group records. -/
  groups : Vector GroupRec 4
  /-- The HELD claims. -/
  held : List Claim
  /-- The waiting list, oldest first (R42). -/
  waiting : List WaitingClaim
  /-- The claim-id counter (R37). -/
  claimCounter : Byte
  /-- The 128 slots of the order store. -/
  slots : Vector Slot 128
  /-- The schedule list (R62). -/
  schedule : List SlotNo
  /-- The armed set: one list for each capture input (R63). -/
  armed : Vector (List SlotNo) 8
  /-- The post-sequence counter (R61). -/
  postSeq : Time
  /-- GA is ACTIVE (R102). -/
  guardA : Bool
  /-- GB is ACTIVE (R102). -/
  guardB : Bool
  /-- The 8 input records. -/
  inputs : Vector InputRec 8
  /-- The capture journal, head first (R122). -/
  journal : List JournalRec
  /-- The capture sequence counter (R123). -/
  captureSeq : Half
  /-- The journal lost count of each station (Table 7-4). -/
  journalLost : Vector Byte 4
  /-- The 4 station records. -/
  stations : Vector StationRec 4
  /-- The 4 port records. -/
  ports : Vector PortRec 4
  /-- The port rate divisor M (R178). -/
  rateDivisor : Nat
deriving DecidableEq, Repr

/-- A step never stops with a fault: the manual names no event that stops the part (INVENTORY.md, Faults).
The type has no constructor. -/
inductive Fault where
deriving DecidableEq, Repr

/-- A step is refused only where a command has no meaning yet. -/
inductive Refusal where
  /-- Raised by an arm of `exec` whose command has no meaning in the model; safe, since nothing can be
  proved of a run past it. No arm raises it. -/
  | notModelled (mnemonic : String)
deriving DecidableEq, Repr

/-- The line record at the end of power-on reset (R35). -/
def LineRec.powerOn : LineRec :=
  ⟨false, .normal, false, false, none, false⟩

/-- The pair unit at the end of power-on reset (R35). -/
def PairUnit.powerOn : PairUnit := ⟨.unbound, 0⟩

/-- The input record at the end of power-on reset (R132). -/
def InputRec.powerOn : InputRec := ⟨none, 0, .idle⟩

/-- The station record at the end of power-on reset (R146). -/
def StationRec.powerOn : StationRec := ⟨.unbound, none, 0, none, none, 0⟩

/-- The discard counters, all 0 (R164). -/
def Discards.zero : Discards := ⟨0, 0, 0, 0, 0, 0⟩

/-- The port record at the end of power-on reset (R164). -/
def PortRec.powerOn : PortRec :=
  { receiver := .hunt, buffer := [], requests := [], replySlot := none, lastRequest := none
    replyCache := none, notices := [], noticesLost := 0, noticeSeq := 0, transmitter := .idle
    discards := Discards.zero }

/-- The timebase at the end of power-on reset (R16). -/
def Timebase.powerOn : Timebase := ⟨.halted, 0, 0, 24, none, none⟩

/-- The port rate divisor M that the RATE straps give (Table 11-3). -/
def rateOfStraps : Level → Level → Nat
  | .low, .low => 4
  | .low, .high => 8
  | .high, .low => 16
  | .high, .high => 32

/-- Every block at its power-on values (R16, R35, R54, R83, R113, R132, R146, R164), with the straps and the
first guard samples as given (R177, R178): a guard input sampled low is ACTIVE, and then every group
starts TRIPPED. -/
def State.powerOn (rate1 rate0 ga gb : Level) : State :=
  { pending := []
    freeChoices := 0
    inReset := false
    tb := Timebase.powerOn
    leaseClock := 0
    lines := Vector.replicate 16 LineRec.powerOn
    pairs := Vector.replicate 8 PairUnit.powerOn
    groups := Vector.replicate 4
      ⟨if ga = .low ∨ gb = .low then .tripped else .normal, .either⟩
    held := []
    waiting := []
    claimCounter := 0
    slots := Vector.replicate 128 ⟨0, none⟩
    schedule := []
    armed := Vector.replicate 8 []
    postSeq := 0
    guardA := decide (ga = .low)
    guardB := decide (gb = .low)
    inputs := Vector.replicate 8 InputRec.powerOn
    journal := []
    captureSeq := 0
    journalLost := Vector.replicate 4 0
    stations := Vector.replicate 4 StationRec.powerOn
    ports := Vector.replicate 4 PortRec.powerOn
    rateDivisor := rateOfStraps rate1 rate0 }

/-- The machine right after power-on reset. DESIGN CHOICE (assumptions 2 and 3): both guard inputs are
sampled high at the end of that reset, and both RATE straps low. -/
def State.reset : State := State.powerOn .low .low .high .high

end Sys2Proof.Machine
end

