-- ==== Sys2Proof/Machine/Flags.lean ====
section
/-! DEFINITION. The codes of spec/10_message_formats_and_codes.md: request codes and lengths (Table 10-3),
outcome codes (Table 10-4), the enumerated values of Table 10-5, and the notice kinds (Table 10-11). -/

namespace Sys2Proof.Machine

/-- The requests of Table 10-3. -/
inductive RequestCode where
  | bind
  | unbind
  | keepalive
  | portStatus
  | timeRead
  | timeStart
  | timeStop
  | claim
  | release
  | shape
  | lineRead
  | pair
  | post
  | cancel
  | revise
  | flush
  | orderRead
  | guardMap
  | rearm
  | subscribe
  | unsubscribe
  | readCaptures
deriving DecidableEq, Repr

/-- The code byte of a request (Table 10-3). -/
def RequestCode.byte : RequestCode → Byte
  | .bind => 0x01
  | .unbind => 0x02
  | .keepalive => 0x03
  | .portStatus => 0x04
  | .timeRead => 0x10
  | .timeStart => 0x11
  | .timeStop => 0x12
  | .claim => 0x20
  | .release => 0x21
  | .shape => 0x22
  | .lineRead => 0x23
  | .pair => 0x24
  | .post => 0x30
  | .cancel => 0x31
  | .revise => 0x32
  | .flush => 0x33
  | .orderRead => 0x34
  | .guardMap => 0x40
  | .rearm => 0x41
  | .subscribe => 0x50
  | .unsubscribe => 0x51
  | .readCaptures => 0x52

/-- The requests in the order of Table 10-3. -/
def RequestCode.all : List RequestCode :=
  [.bind, .unbind, .keepalive, .portStatus, .timeRead, .timeStart, .timeStop, .claim, .release,
   .shape, .lineRead, .pair, .post, .cancel, .revise, .flush, .orderRead, .guardMap, .rearm,
   .subscribe, .unsubscribe, .readCaptures]

/-- The request a code byte names, if the table lists it (R168). -/
def RequestCode.ofByte (b : Byte) : Option RequestCode :=
  RequestCode.all.find? (fun c => c.byte == b)

/-- The payload length of a request (Table 10-3). -/
def RequestCode.payloadLength : RequestCode → Nat
  | .bind => 3
  | .unbind => 0
  | .keepalive => 0
  | .portStatus => 1
  | .timeRead => 0
  | .timeStart => 10
  | .timeStop => 0
  | .claim => 5
  | .release => 2
  | .shape => 5
  | .lineRead => 1
  | .pair => 3
  | .post => 20
  | .cancel => 3
  | .revise => 8
  | .flush => 2
  | .orderRead => 1
  | .guardMap => 2
  | .rearm => 1
  | .subscribe => 3
  | .unsubscribe => 1
  | .readCaptures => 1

/-- The outcome byte (Table 10-4). -/
def ReplyCode.byte : ReplyCode → Byte
  | .ok => 0x00
  | .queued => 0x01
  | .okLate => 0x02
  | .badFormat => 0x10
  | .badValue => 0x11
  | .unknownRequest => 0x12
  | .notBound => 0x20
  | .staleSession => 0x21
  | .bound => 0x22
  | .heldElsewhere => 0x30
  | .notHolder => 0x31
  | .overlap => 0x32
  | .waitFull => 0x33
  | .paired => 0x34
  | .timebaseState => 0x40
  | .inUse => 0x41
  | .quota => 0x50
  | .late => 0x51
  | .beyondHorizon => 0x52
  | .unknownOrder => 0x53
  | .notPeriodic => 0x54
  | .ending => 0x55
  | .tripped => 0x56
  | .guardActive => 0x60
  | .conflict => 0x70
  | .noSubscription => 0x71

/-! ### Values of Table 10-5, as replies and notices send them -/

/-- yes or no. -/
def yesNo (b : Bool) : Byte := if b then 1 else 0

/-- Timebase state. -/
def TimebaseState.byte : TimebaseState → Byte
  | .halted => 0
  | .armed => 1
  | .running => 2

/-- Session state. -/
def SessionState.byte : SessionState → Byte
  | .unbound => 0
  | .bound => 1
  | .lapsed => 2

/-- Station, or none. -/
def stationByte : Option StationNo → Byte
  | none => 0xFF
  | some n => BitVec.ofNat 8 n.val

/-- Pair state. -/
def PairState.byte : PairState → Byte
  | .unbound => 0
  | .bothOff => 1
  | .primaryOn => 2
  | .partnerOn => 3
  | .gapToPrimary _ => 4
  | .gapToPartner _ => 5

/-- The end time of a gap state, 0 in any other state (R34). -/
def PairState.endTime : PairState → Time
  | .unbound => 0
  | .bothOff => 0
  | .primaryOn => 0
  | .partnerOn => 0
  | .gapToPrimary e => e
  | .gapToPartner e => e

/-- Group state. -/
def GroupState.byte : GroupState → Byte
  | .normal => 0
  | .tripped => 1

/-- Guard map. -/
def GuardMap.byte : GuardMap → Byte
  | .none => 0
  | .ga => 1
  | .gb => 2
  | .either => 3

/-- Guard input. -/
def guardByte : GuardInput → Byte
  | .ga => 0
  | .gb => 1

/-- Order kind. -/
def OrderKind.byte : OrderKind → Byte
  | .step => 0
  | .pulse => 1
  | .train => 2
  | .pattern => 3

/-- Edges. -/
def Edges.byte : Edges → Byte
  | .rising => 0
  | .falling => 1
  | .both => 2

/-- ENDED reason. -/
def EndReason.byte : EndReason → Byte
  | .complete => 0
  | .cancelled => 1
  | .late => 2
  | .suppressed => 3

/-- Phase, as the order entry sends it (Table 10-9). -/
def Phase.bits : Phase → BitVec 2
  | .absent => 0
  | .leading => 1
  | .trailing => 2

/-- Direction, as the capture record sends it (Table 10-10). -/
def Direction.bit : Direction → Bool
  | .rising => false
  | .falling => true

/-! ### Values of Table 10-5, as requests name them -/

/-- HOLD or SAFE. -/
def LineAction.ofByte (b : Byte) : Option LineAction :=
  if b = 0 then some .hold else if b = 1 then some .safe else none

/-- Guard map. -/
def GuardMap.ofByte (b : Byte) : Option GuardMap :=
  if b = 0 then some .none else if b = 1 then some .ga
  else if b = 2 then some .gb else if b = 3 then some .either else none

/-- Order kind. -/
def OrderKind.ofByte (b : Byte) : Option OrderKind :=
  if b = 0 then some .step else if b = 1 then some .pulse
  else if b = 2 then some .train else if b = 3 then some .pattern else none

/-- STEP action. -/
def StepAction.ofByte (b : Byte) : Option StepAction :=
  if b = 0 then some .assert else if b = 1 then some .deassert
  else if b = 2 then some .invert else none

/-- The trigger modes of POST (Table 4-4). -/
inductive TriggerMode where
  | absolute
  | relative
  | onCapture
deriving DecidableEq, Repr

/-- Trigger mode. -/
def TriggerMode.ofByte (b : Byte) : Option TriggerMode :=
  if b = 0 then some .absolute else if b = 1 then some .relative
  else if b = 2 then some .onCapture else none

/-- Late policy, the high half of POST byte 17 (R172). -/
def LatePolicy.ofNibble (b : BitVec 4) : Option LatePolicy :=
  if b = 0 then some .refuse else if b = 1 then some .fire else none

/-- Notify, the low half of POST byte 17 (R172). -/
def Notify.ofNibble (b : BitVec 4) : Option Notify :=
  if b = 0 then some .none else if b = 1 then some .first
  else if b = 2 then some .atEnd else if b = 3 then some .both else none

/-- Edges. -/
def Edges.ofByte (b : Byte) : Option Edges :=
  if b = 0 then some .rising else if b = 1 then some .falling
  else if b = 2 then some .both else none

/-- A SHAPE setting: a value, or KEEP (Table 2-5). -/
inductive Setting (α : Type) where
  | keep
  | value (v : α)
deriving DecidableEq, Repr

/-- Polarity, or KEEP. -/
def polaritySetting (b : Byte) : Option (Setting Polarity) :=
  if b = 0 then some (.value .normal) else if b = 1 then some (.value .inverted)
  else if b = 0xFF then some .keep else none

/-- Safe level or drive, or KEEP. -/
def flagSetting (b : Byte) : Option (Setting Bool) :=
  if b = 0 then some (.value false) else if b = 1 then some (.value true)
  else if b = 0xFF then some .keep else none

/-- The setting's value, or what stands. -/
def Setting.apply {α : Type} (x : Setting α) (old : α) : α :=
  match x with
  | .keep => old
  | .value v => v

end Sys2Proof.Machine
end

