-- ==== Sys2Proof/Machine/Frames.lean ====
section
/-! DEFINITION. Frames as bytes and as characters: the check value (R151), the reply and notice frames (R165 to
R167), the notice payloads (Table 10-11), the numbers in payloads (R171) and the characters of a frame on the line
(R147). -/

namespace Sys2Proof.Machine

/-! ### Numbers in payloads: most significant byte first (R171) -/

/-- A 16-bit number as two bytes. -/
def bytes16 (x : Half) : List Byte := [x.extractLsb' 8 8, x.extractLsb' 0 8]

/-- A 32-bit number as four bytes. -/
def bytes32 (x : Time) : List Byte :=
  [x.extractLsb' 24 8, x.extractLsb' 16 8, x.extractLsb' 8 8, x.extractLsb' 0 8]

/-- A small number as one byte. -/
def byteOf (n : Nat) : Byte := BitVec.ofNat 8 n

/-- A handle as two bytes: slot, generation. -/
def Handle.bytes (h : Handle) : List Byte := [byteOf h.slot.val, h.generation]

/-! ### The check value (R151) -/

/-- One bit into the check register. -/
def crcBit (r : BitVec 16) (b : Bool) : BitVec 16 :=
  if (r.msb != b) then (r <<< 1) ^^^ 0x1021#16 else r <<< 1

/-- One byte into the check register, most significant bit first. -/
def crcByte (r : BitVec 16) (x : Byte) : BitVec 16 :=
  [7, 6, 5, 4, 3, 2, 1, 0].foldl (fun r i => crcBit r (x.getLsbD i)) r

/-- The check value of the bytes of a frame. -/
def checkValue (bytes : List Byte) : BitVec 16 := bytes.foldl crcByte 0xFFFF#16

/-- The bytes with their check value after them, most significant byte first. -/
def withCheck (bytes : List Byte) : List Byte := bytes ++ bytes16 (checkValue bytes)

/-! ### Frames the part sends -/

/-- Byte 0 of a frame: the kind in the two most significant bits, the sequence in the other six (R165). -/
def kindByte (kind : BitVec 2) (sequence : BitVec 6) : Byte := kind ++ sequence

/-- The reply frame (R166). -/
def Reply.frame (r : Reply) : List Byte :=
  withCheck ([kindByte 1#2 r.sequence, r.session, r.code, r.outcome.byte,
              byteOf r.payload.length] ++ r.payload)

/-- The notice kind (Table 10-11). -/
def Notice.code : Notice → Byte
  | .fired _ _ _ _ => 0x01
  | .ended _ _ _ _ => 0x02
  | .suppressed _ _ _ => 0x03
  | .granted _ _ => 0x04
  | .waitExpired _ _ => 0x05
  | .trip _ _ => 0x06
  | .tripCleared _ => 0x07
  | .timeStarted _ _ _ => 0x08
  | .markTimeout _ _ _ => 0x09
  | .captureReady _ _ => 0x0A

/-- The notice payload (Table 10-11). -/
def Notice.payload : Notice → List Byte
  | .fired h tag kind e => h.bytes ++ bytes16 tag ++ [kind.byte] ++ bytes32 e
  | .ended h tag reason e => h.bytes ++ bytes16 tag ++ [reason.byte] ++ bytes32 e
  | .suppressed h tag e => h.bytes ++ bytes16 tag ++ bytes32 e
  | .granted id lines => id :: bytes16 lines
  | .waitExpired id lines => id :: bytes16 lines
  | .trip g i => [byteOf g.val, guardByte i]
  | .tripCleared g => [byteOf g.val]
  | .timeStarted t d h => bytes32 t ++ [byteOf d, byteOf h]
  | .markTimeout t d h => bytes32 t ++ [byteOf d, byteOf h]
  | .captureReady seq i => bytes16 seq ++ [byteOf i.val]

/-- The notice frame, with the header fields that are filled when it is begun (R160, R167). -/
def Notice.frame (x : Notice) (sequence : BitVec 6) (session lost : Byte) : List Byte :=
  withCheck ([kindByte 2#2 sequence, session, x.code, lost, byteOf x.payload.length] ++ x.payload)

/-! ### Characters on the line (R147) -/

/-- A character (Table 9-2), its start bit apart, which is always 0. -/
structure Character where
  /-- Bits 1 to 8. -/
  data : Byte
  /-- Bit 9: 1 on the first character of a frame. -/
  marker : Bool
  /-- Bit 10: 1 on every character sent. -/
  stop : Bool
deriving DecidableEq, Repr

/-- The 11 bits of a character in the order of the line (Table 9-2): start bit 0, data least significant bit
first, marker, stop. -/
def Character.bits (c : Character) : List Bool :=
  false :: (List.range 8).map c.data.getLsbD ++ [c.marker, c.stop]

/-- The characters of a frame as sent, back to back: marker 1 on the first and 0 on every other, stop bit 1. -/
def sentCharacters : List Byte → List Character
  | [] => []
  | x :: rest => ⟨x, true, true⟩ :: rest.map (fun y => ⟨y, false, true⟩)

/-- The REFCLK periods of one bit on every line (R147). -/
def State.bitTime (s : State) : Nat := 16 * s.rateDivisor

end Sys2Proof.Machine
end

