-- ==== Sys2Proof/Config.lean ====
section
/-! DEFINITION. The sizes of spec/00_scope.md Table 7-1, and the one free value of the model. -/

namespace Sys2Proof

/-- Slots of the order store (R55). -/
def Config.orderSlots : Nat := 128

/-- Records the capture journal holds at most (R122). -/
def Config.journalRecords : Nat := 64

/-- Notices a notice queue holds at most (R159). -/
def Config.noticeQueue : Nat := 8

/-- Frames a request queue holds at most (R154). -/
def Config.requestQueue : Nat := 2

/-- Claims the waiting list holds at most, of all stations (R41). -/
def Config.waitingList : Nat := 8

/-- Claims the waiting list holds at most of one station (R41). -/
def Config.waitingPerStation : Nat := 2

/-- The longest payload of a frame (R148). -/
def Config.maxPayload : Nat := 48

/-- FREE VALUE (assumption 10). R105 trips several groups at one instant and gives no order in which their
TRIP notices join one station's queue. The order taken at the `n`-th such activation is the order of the
ranks `Config.tripRank n g`: nothing constrains it. -/
opaque Config.tripRank : Nat → GroupNo → Nat

end Sys2Proof
end

