-- ==== Sys2Proof/Machine/Ops.lean ====
section
/-! DEFINITION. The named operations over the records of the state: reading and writing one record, the
numbers of lines, pairs and groups, the saturating counters, and the arithmetic of device time. -/

namespace Sys2Proof.Machine

/-! ### Reading and writing one record -/

/-- The record of line `l`. -/
def State.line (s : State) (l : LineNo) : LineRec := s.lines[l]

/-- `s` with the record of line `l` replaced. -/
def State.setLine (s : State) (l : LineNo) (r : LineRec) : State :=
  { s with lines := s.lines.set l r }

/-- The unit of pair `k`. -/
def State.pair (s : State) (k : PairNo) : PairUnit := s.pairs[k]

/-- `s` with the unit of pair `k` replaced. -/
def State.setPair (s : State) (k : PairNo) (r : PairUnit) : State :=
  { s with pairs := s.pairs.set k r }

/-- The record of group `g`. -/
def State.group (s : State) (g : GroupNo) : GroupRec := s.groups[g]

/-- `s` with the record of group `g` replaced. -/
def State.setGroup (s : State) (g : GroupNo) (r : GroupRec) : State :=
  { s with groups := s.groups.set g r }

/-- Slot `i` of the order store. -/
def State.slot (s : State) (i : SlotNo) : Slot := s.slots[i]

/-- `s` with slot `i` replaced. -/
def State.setSlot (s : State) (i : SlotNo) (r : Slot) : State :=
  { s with slots := s.slots.set i r }

/-- The order in slot `i`, if any. -/
def State.order (s : State) (i : SlotNo) : Option Order := (s.slot i).order

/-- `s` with the order `o` in slot `i`; the slot keeps its generation. -/
def State.setOrder (s : State) (i : SlotNo) (o : Order) : State :=
  s.setSlot i { s.slot i with order := some o }

/-- The armed list of capture input `c` (R63). -/
def State.armedOn (s : State) (c : InputNo) : List SlotNo := s.armed[c]

/-- `s` with the armed list of input `c` replaced. -/
def State.setArmed (s : State) (c : InputNo) (l : List SlotNo) : State :=
  { s with armed := s.armed.set c l }

/-- The record of capture input `c`. -/
def State.input (s : State) (c : InputNo) : InputRec := s.inputs[c]

/-- `s` with the record of input `c` replaced. -/
def State.setInput (s : State) (c : InputNo) (r : InputRec) : State :=
  { s with inputs := s.inputs.set c r }

/-- The journal lost count of station `n` (Table 7-4). -/
def State.lostOf (s : State) (n : StationNo) : Byte := s.journalLost[n]

/-- `s` with the journal lost count of station `n` replaced. -/
def State.setLost (s : State) (n : StationNo) (c : Byte) : State :=
  { s with journalLost := s.journalLost.set n c }

/-- The record of station `n`. -/
def State.station (s : State) (n : StationNo) : StationRec := s.stations[n]

/-- `s` with the record of station `n` replaced. -/
def State.setStation (s : State) (n : StationNo) (r : StationRec) : State :=
  { s with stations := s.stations.set n r }

/-- The record of port `n`. -/
def State.port (s : State) (n : StationNo) : PortRec := s.ports[n]

/-- `s` with the record of port `n` replaced. -/
def State.setPort (s : State) (n : StationNo) (r : PortRec) : State :=
  { s with ports := s.ports.set n r }

/-- `s` with the timebase record replaced. -/
def State.setTb (s : State) (r : Timebase) : State := { s with tb := r }

/-! ### Lines, pairs and groups -/

/-- The pair of line `l` (00_scope.md 5.4). -/
def pairOf (l : LineNo) : PairNo := ⟨l.val / 2, by omega⟩

/-- The group of line `l`. -/
def groupOf (l : LineNo) : GroupNo := ⟨l.val / 4, by omega⟩

/-- The group of pair `k`: both lines of a pair lie in group ⌊k/2⌋ (02 section 2.3). -/
def groupOfPair (k : PairNo) : GroupNo := ⟨k.val / 2, by omega⟩

/-- The primary L2k of pair `k`. -/
def primary (k : PairNo) : LineNo := ⟨2 * k.val, by omega⟩

/-- The partner L2k+1 of pair `k`. -/
def partner (k : PairNo) : LineNo := ⟨2 * k.val + 1, by omega⟩

/-- Line `l` is the primary of its pair. -/
def isPrimary (l : LineNo) : Bool := l.val % 2 == 0

/-- Line `4g + j` of group `g`. -/
def groupLine (g : GroupNo) (j : Fin 4) : LineNo := ⟨4 * g.val + j.val, by omega⟩

/-- The four lines of group `g`, ascending. -/
def groupLines (g : GroupNo) : List LineNo :=
  [groupLine g 0, groupLine g 1, groupLine g 2, groupLine g 3]

/-- The line mask of one line. -/
def lineMask (l : LineNo) : LineMask := 1#16 <<< l.val

/-- Line `l` is named by the mask `m` (R171). -/
def named (m : LineMask) (l : LineNo) : Bool := m.getLsbD l.val

/-- The lines a mask names, ascending. -/
def linesOf (m : LineMask) : List LineNo := (List.finRange 16).filter (named m)

/-- The line mask of a group mask: bit `i` stands for line `4g + i` (R171). -/
def groupMaskLines (g : GroupNo) (m : BitVec 4) : LineMask := m.setWidth 16 <<< (4 * g.val)

/-- The station `n` is in the set. -/
def inSet (x : StationSet) (n : StationNo) : Bool := x.getLsbD n.val

/-- The set of one station. -/
def oneStation (n : StationNo) : StationSet := 1#4 <<< n.val

/-- The set without station `n`. -/
def dropStation (x : StationSet) (n : StationNo) : StationSet := x &&& ~~~ oneStation n

/-! ### Counters -/

/-- One more, staying at the top of the range: the saturating counters (R124, R150, R159). -/
def satInc {w : Nat} (x : BitVec w) : BitVec w := if x = BitVec.allOnes w then x else x + 1

/-- One less, staying at 0: a lease-unit timer at a lease boundary (R15). A timer that has reached 0 waits
there for its expiry (assumption 9). -/
def countDown {w : Nat} (x : BitVec w) : BitVec w := if x = 0 then 0 else x - 1

/-- Stepping forward from 0 to 254 adds 1, and stepping forward from 255 gives 1 (R37, R134). -/
def stepForward (x : Byte) : Byte := if x = 255 then 1 else x + 1

/-! ### Device time -/

/-- The distance of `t` from now, (t − T) mod 2^32 (00_scope.md 5.2). -/
def State.distance (s : State) (t : Time) : Nat := (t - s.tb.t).toNat

/-- The horizon H = 2^h ticks (R3). -/
def State.horizon (s : State) : Nat := 2 ^ s.tb.h

/-- The classes of a time (Table 5-1). -/
inductive TimeClass where
  | future
  | beyond
  | late
deriving DecidableEq, Repr

/-- The class of a time by its distance from T (R3). -/
def State.classify (s : State) (t : Time) : TimeClass :=
  if 1 ≤ s.distance t ∧ s.distance t ≤ s.horizon then .future
  else if s.horizon < s.distance t ∧ s.distance t ≤ 2 ^ 31 then .beyond
  else .late

/-- The timebase is RUNNING. -/
def State.running (s : State) : Bool := s.tb.state == .running

/-! ### Sessions and holdings -/

/-- Station `n` is BOUND. -/
def State.isBound (s : State) (n : StationNo) : Bool := (s.station n).session == .bound

/-- The unreserved count: 128 less the sum of the quotas of all four stations (R59). -/
def State.unreserved (s : State) : Nat :=
  Config.orderSlots -
    ((s.station 0).quota.toNat + (s.station 1).quota.toNat +
     (s.station 2).quota.toNat + (s.station 3).quota.toNat)

/-- The HELD claim with this id, if there is one. -/
def State.heldClaim (s : State) (id : Byte) : Option Claim := s.held.find? (fun c => c.id == id)

/-- The station that holds line `l`, if a claim holds it (R19, R34). -/
def State.holderStation (s : State) (l : LineNo) : Option StationNo :=
  match (s.line l).holder with
  | none => none
  | some id => (s.heldClaim id).map (fun c => c.station)

/-- Line `l` is held by a claim of station `n`. -/
def State.holds (s : State) (n : StationNo) (l : LineNo) : Bool := s.holderStation l == some n

/-- Station `n` holds every line of the mask. -/
def State.holdsAll (s : State) (n : StationNo) (m : LineMask) : Bool :=
  (linesOf m).all (s.holds n)

/-- Station `n` holds at least one line of group `g`. -/
def State.holdsInGroup (s : State) (n : StationNo) (g : GroupNo) : Bool :=
  (groupLines g).any (s.holds n)

/-- Line `l` is held by no claim (R53). -/
def State.free (s : State) (l : LineNo) : Bool := (s.line l).holder.isNone

/-! ### Guard inputs -/

/-- Guard input `g` is ACTIVE (R102). -/
def State.guardActive (s : State) : GuardInput → Bool
  | .ga => s.guardA
  | .gb => s.guardB

/-- `s` with the activity of guard input `g` as given. -/
def State.setGuard (s : State) (g : GuardInput) (active : Bool) : State :=
  match g with
  | .ga => { s with guardA := active }
  | .gb => { s with guardB := active }

/-- The guard map names the input (Table 6-1). -/
def mapNames : GuardMap → GuardInput → Bool
  | .none, _ => false
  | .ga, .ga => true
  | .ga, .gb => false
  | .gb, .ga => false
  | .gb, .gb => true
  | .either, _ => true

/-- An input named by the map is ACTIVE: GA if it is, and GB otherwise (R104, R111). -/
def State.activeMapped (s : State) (m : GuardMap) : Option GuardInput :=
  if mapNames m .ga && s.guardActive .ga then some .ga
  else if mapNames m .gb && s.guardActive .gb then some .gb
  else none

/-! ### The capture journal -/

/-- The unread count of station `n`: the journal records whose reader set names it (Table 7-4). -/
def State.unread (s : State) (n : StationNo) : Nat :=
  (s.journal.filter (fun r => inSet r.readers n)).length

/-! ### Pins -/

/-- What an L pin shows. -/
inductive PinLevel where
  | highImpedance
  | high
  | low
deriving DecidableEq, Repr

/-- The pin of a line record (R17, Table 2-2). -/
def LineRec.pin (r : LineRec) : PinLevel :=
  if r.driveOn then
    match r.asserted, r.polarity with
    | true, .normal => .high
    | true, .inverted => .low
    | false, .normal => .low
    | false, .inverted => .high
  else .highImpedance

/-- The pin of line `l`: high-impedance while power-on reset lasts (R177), else as its record gives. The
level is the pin's once the line unit's work of the instant is done (R17, assumption 16). -/
def State.linePin (s : State) (l : LineNo) : PinLevel :=
  if s.inReset then .highImpedance else (s.line l).pin

end Sys2Proof.Machine
end

