-- ==== Sys2Proof/Machine/NoticeOps.lean ====
section
/-! DEFINITION. The transmitter's choice of a frame (R158), the beginning of a notice (R160), and the
appending of a notice to a station's queue (R159). -/

namespace Sys2Proof.Machine

/-- The frame an idle transmitter begins (R158): the reply in the slot; otherwise, for a BOUND station, the
oldest notice, whose session, sequence and lost count fields are filled at that instant (R160). A
transmitter that is not idle begins nothing. DESIGN CHOICE (assumption 25): the lost count filled in counts every
drop before this instant, as R160 and the third row of R163's table say; by that table's second row a drop taken
just before would be counted in the notice after the one begun. -/
def PortRec.choose (p : PortRec) (bound : Bool) (session : Byte) : PortRec :=
  match p.transmitter with
  | .idle =>
    match p.replySlot with
    | some r => { p with replySlot := none, transmitter := .sending r.frame 0 }
    | none =>
      match bound, p.notices with
      | true, x :: rest =>
        { p with
          notices := rest
          transmitter := .sending (x.frame p.noticeSeq session p.noticesLost) 0
          noticeSeq := p.noticeSeq + 1
          noticesLost := 0 }
      | _, _ => p
  | .sending _ _ => p
  | .cut _ _ => p

/-- The session number of station `n` as a notice header carries it (R160). A BOUND station has one (R134). -/
def State.sessionByte (s : State) (n : StationNo) : Byte := (s.station n).number.getD 0

/-- The transmitter of port `n` chooses (R158). -/
def State.transmitChoice (s : State) (n : StationNo) : State :=
  s.setPort n ((s.port n).choose (s.isBound n) (s.sessionByte n))

/-- A notice joins the tail of the queue, or is dropped and counted when the queue holds 8 (R159). -/
def PortRec.enqueue (p : PortRec) (x : Notice) : PortRec :=
  if p.notices.length < Config.noticeQueue then { p with notices := p.notices ++ [x] }
  else { p with noticesLost := satInc p.noticesLost }

/-- A block appends a notice for station `n` (R159): only for a BOUND station, and an idle transmitter
chooses at that instant (R158). -/
def State.appendNotice (s : State) (n : StationNo) (x : Notice) : State :=
  if s.isBound n then (s.setPort n ((s.port n).enqueue x)).transmitChoice n else s

/-- A notice for every station that `who` selects. Each station has a queue of its own, so the order of
the stations does not matter. -/
def State.appendNotices (s : State) (who : StationNo → Bool) (x : Notice) : State :=
  ((List.finRange 4).filter who).foldl (fun s n => s.appendNotice n x) s

end Sys2Proof.Machine
end

