-- ==== Sys2Proof/Machine/LineOps.lean ====
section
/-! DEFINITION. The line unit's operations: a command's pair stage and group stage (R20, R21), the pair
unit (R22 to R25), the safe state (R27), the release actions (R30), and the trip of a group (R106, R107). -/

namespace Sys2Proof.Machine

/-- The asserted state of line `l` is set. -/
def State.setAsserted (s : State) (l : LineNo) (a : Bool) : State :=
  s.setLine l { s.line l with asserted := a }

/-- The state of pair `k` is set; the gap value stays. -/
def State.setPairState (s : State) (k : PairNo) (x : PairState) : State :=
  s.setPair k { s.pair k with state := x }

/-- Pair `k` is bound (R22). -/
def State.pairBound (s : State) (k : PairNo) : Bool := (s.pair k).state != .unbound

/-- The group is NORMAL. -/
def State.groupNormal (s : State) (g : GroupNo) : Bool := (s.group g).state == .normal

/-- The state is one of the two gap states. -/
def PairState.inGap : PairState → Bool
  | .unbound => false
  | .bothOff => false
  | .primaryOn => false
  | .partnerOn => false
  | .gapToPrimary _ => true
  | .gapToPartner _ => true

/-- The intended side of a bound pair is the primary (R22). -/
def PairState.intendsPrimary : PairState → Bool
  | .unbound => false
  | .bothOff => false
  | .primaryOn => true
  | .partnerOn => false
  | .gapToPrimary _ => true
  | .gapToPartner _ => false

/-! ### The pair unit -/

/-- The pair's state is set from its levels; any end time is discarded (R22). -/
def State.setFromLevels (s : State) (k : PairNo) : State :=
  s.setPairState k
    (if (s.line (primary k)).asserted then .primaryOn
     else if (s.line (partner k)).asserted then .partnerOn
     else .bothOff)

/-- The change of side towards the primary: the partner is deasserted, then the gap towards the primary
starts, or with gap 0 the primary is asserted at once (R23). -/
def State.turnToPrimary (s : State) (k : PairNo) : State :=
  if (s.pair k).gap = 0 then
    ((s.setAsserted (partner k) false).setAsserted (primary k) true).setPairState k .primaryOn
  else
    (s.setAsserted (partner k) false).setPairState k
      (.gapToPrimary (s.tb.t + (s.pair k).gap.setWidth 32))

/-- The change of side towards the partner (R24). -/
def State.turnToPartner (s : State) (k : PairNo) : State :=
  if (s.pair k).gap = 0 then
    ((s.setAsserted (primary k) false).setAsserted (partner k) true).setPairState k .partnerOn
  else
    (s.setAsserted (primary k) false).setPairState k
      (.gapToPartner (s.tb.t + (s.pair k).gap.setWidth 32))

/-- ASSERT given to a bound pair unit (R23). An UNBOUND pair unit makes no change (R22). -/
def State.pairAssert (s : State) (k : PairNo) : State :=
  match (s.pair k).state with
  | .unbound => s
  | .primaryOn => s
  | .gapToPrimary _ => s
  | .bothOff => s.turnToPrimary k
  | .partnerOn => s.turnToPrimary k
  | .gapToPartner _ => s.turnToPrimary k

/-- DEASSERT given to a bound pair unit (R24). -/
def State.pairDeassert (s : State) (k : PairNo) : State :=
  match (s.pair k).state with
  | .unbound => s
  | .partnerOn => s
  | .gapToPartner _ => s
  | .bothOff => s.turnToPartner k
  | .primaryOn => s.turnToPartner k
  | .gapToPrimary _ => s.turnToPartner k

/-- A gap that ends now completes (R25): the named side is asserted and the pair enters its ON state. A
pair whose gap does not end now is left as it is. -/
def State.completeGap (s : State) (k : PairNo) : State :=
  match (s.pair k).state with
  | .gapToPrimary e =>
    if e = s.tb.t then (s.setAsserted (primary k) true).setPairState k .primaryOn else s
  | .gapToPartner e =>
    if e = s.tb.t then (s.setAsserted (partner k) true).setPairState k .partnerOn else s
  | .unbound => s
  | .bothOff => s
  | .primaryOn => s
  | .partnerOn => s

/-- Every gap that ends now completes. -/
def State.completeGaps (s : State) : State := (List.finRange 8).foldl State.completeGap s

/-! ### Commands -/

/-- The kinds of a line command (R20). -/
inductive LineCommand where
  | assert
  | deassert
  | invert
  | level (asserted : Bool)
deriving DecidableEq, Repr

/-- The asserted state a command gives a line outside a bound pair (R20). -/
def LineCommand.apply : LineCommand → Bool → Bool
  | .assert, _ => true
  | .deassert, _ => false
  | .invert, a => !a
  | .level a, _ => a

/-- A command given to a bound pair unit: INVERT is decided by the intended side, LEVEL acts as ASSERT or
DEASSERT (R20, R23, R24). -/
def State.pairCommand (s : State) (k : PairNo) : LineCommand → State
  | .assert => s.pairAssert k
  | .deassert => s.pairDeassert k
  | .invert => if (s.pair k).state.intendsPrimary then s.pairDeassert k else s.pairAssert k
  | .level a => if a then s.pairAssert k else s.pairDeassert k

/-- A command to line `l` at the tick T (R21). In a TRIPPED group it is not made. In a NORMAL group, a
command naming the primary of a bound pair is given to the pair unit, and any other sets the line. -/
def State.command (s : State) (l : LineNo) (c : LineCommand) : State :=
  if s.groupNormal (groupOf l) then
    if isPrimary l && s.pairBound (pairOf l) then s.pairCommand (pairOf l) c
    else s.setAsserted l (c.apply (s.line l).asserted)
  else s

/-! ### Safe states and actions -/

/-- Deasserts line `l` if its safe level is DEASSERTED (step 2 of R27). -/
def State.safeDeassert (s : State) (l : LineNo) : State :=
  if (s.line l).safe then s else s.setAsserted l false

/-- Asserts line `l` if its safe level is ASSERTED (step 3 of R27). -/
def State.safeAssert (s : State) (l : LineNo) : State :=
  if (s.line l).safe then s.setAsserted l true else s

/-- A bound pair is set to its safe state (R27): the safe-DEASSERTED sides first, then the safe-ASSERTED
side, and the state from the levels, which cancels a gap in progress. -/
def State.safePair (s : State) (k : PairNo) : State :=
  ((((s.safeDeassert (primary k)).safeDeassert (partner k)).safeAssert (primary k)).safeAssert
    (partner k)).setFromLevels k

/-- A line outside a bound pair is set to its safe level; the bound pair of any other is set to its safe
state (R30, R32, R106). -/
def State.toSafe (s : State) (l : LineNo) : State :=
  if s.pairBound (pairOf l) then s.safePair (pairOf l)
  else s.setAsserted l (s.line l).safe

/-- The release action on a set of lines (R30): HOLD changes no line. -/
def State.applyAction (s : State) (m : LineMask) : LineAction → State
  | .hold => s
  | .safe => (linesOf m).foldl State.toSafe s

/-! ### Trips -/

/-- Steps 1 to 3 of a trip (R106): the group becomes TRIPPED and its lines and pairs are set to safe. -/
def State.tripGroup (s : State) (g : GroupNo) : State :=
  (groupLines g).foldl State.toSafe (s.setGroup g { s.group g with state := .tripped })

/-- Step 4 of a trip: a TRIP notice for every station that holds a line of the group (R107). -/
def State.tripNotices (s : State) (g : GroupNo) (i : GuardInput) : State :=
  s.appendNotices (fun n => s.holdsInGroup n g) (.trip g i)

end Sys2Proof.Machine
end

