-- ==== Sys2Proof/Machine/Operands.lean ====
section
/-! DEFINITION. The operands of the requests: the fields of a queued frame's payload by the layouts of
Tables 10-6a and 10-6b (R171 to R173). -/

namespace Sys2Proof.Machine

/-- Payload byte `i` (byte `4 + i` of the frame). The length has been checked before a field is read. -/
def RequestFrame.at (f : RequestFrame) (i : Nat) : Byte := f.payload.getD i 0

/-- The two bytes from byte `i`, most significant first. -/
def RequestFrame.half (f : RequestFrame) (i : Nat) : Half := f.at i ++ f.at (i + 1)

/-- The three bytes from byte `i`, most significant first. -/
def RequestFrame.span (f : RequestFrame) (i : Nat) : Span := f.at i ++ f.at (i + 1) ++ f.at (i + 2)

/-- The four bytes from byte `i`, most significant first. -/
def RequestFrame.time (f : RequestFrame) (i : Nat) : Time :=
  f.at i ++ f.at (i + 1) ++ f.at (i + 2) ++ f.at (i + 3)

/-- A byte read as a number below `n`, if it is in range. -/
def inRange (n : Nat) (b : Byte) : Option (Fin n) :=
  if h : b.toNat < n then some ⟨b.toNat, h⟩ else none

/-- The request the frame's code names. -/
def RequestFrame.request (f : RequestFrame) : Option RequestCode := RequestCode.ofByte f.code

/-! ### POST (R172) -/

/-- The kind of a POST. -/
def RequestFrame.postKind (f : RequestFrame) : Option OrderKind := OrderKind.ofByte (f.at 0)

/-- The STEP action of a POST. -/
def RequestFrame.postAction (f : RequestFrame) : Option StepAction := StepAction.ofByte (f.at 2)

/-- The group mask of a PATTERN: the low four bits of byte 2. -/
def RequestFrame.patternMask (f : RequestFrame) : BitVec 4 := (f.at 2).extractLsb' 0 4

/-- The levels of a PATTERN: the high four bits of byte 2. -/
def RequestFrame.patternLevels (f : RequestFrame) : BitVec 4 := (f.at 2).extractLsb' 4 4

/-- The trigger mode of a POST. -/
def RequestFrame.postMode (f : RequestFrame) : Option TriggerMode := TriggerMode.ofByte (f.at 3)

/-- The late policy of a POST: the high half of byte 17. -/
def RequestFrame.postLate (f : RequestFrame) : Option LatePolicy :=
  LatePolicy.ofNibble ((f.at 17).extractLsb' 4 4)

/-- The notify setting of a POST: the low half of byte 17. -/
def RequestFrame.postNotify (f : RequestFrame) : Option Notify :=
  Notify.ofNibble ((f.at 17).extractLsb' 0 4)

/-- The fields of a POST that passed the form check, its kind's own fields not yet checked. -/
structure PostForm where
  /-- The kind. -/
  kind : OrderKind
  /-- The action of a STEP (ASSERT stands in for other kinds, which do not use it). -/
  action : StepAction
  /-- The trigger mode. -/
  mode : TriggerMode
  /-- The late policy. -/
  late : LatePolicy
  /-- The notify setting. -/
  notify : Notify
deriving DecidableEq, Repr

/-- The form check of POST (R65): kind, trigger mode, late policy, notify, and the action of a STEP, each
name one of their values. -/
def RequestFrame.postForm (f : RequestFrame) : Option PostForm :=
  match f.postKind, f.postMode, f.postLate, f.postNotify with
  | some .step, some mode, some late, some notify =>
    match f.postAction with
    | some action => some ⟨.step, action, mode, late, notify⟩
    | none => none
  | some kind, some mode, some late, some notify => some ⟨kind, .assert, mode, late, notify⟩
  | _, _, _, _ => none

/-- The kind with its own fields, when every value lies in its range of Table 4-5 (R65); `horizon` is H. -/
def RequestFrame.postBody (f : RequestFrame) (x : PostForm) (horizon : Nat) : Option OrderBody :=
  match x.kind with
  | .step =>
    match inRange 16 (f.at 1) with
    | some l => some (.step l x.action)
    | none => none
  | .pulse =>
    match inRange 16 (f.at 1) with
    | some l =>
      if 1 ≤ (f.span 9).toNat ∧ (f.span 9).toNat ≤ horizon then some (.pulse l (f.span 9)) else none
    | none => none
  | .train =>
    match inRange 16 (f.at 1) with
    | some l =>
      if 2 ≤ (f.span 12).toNat ∧ (f.span 12).toNat ≤ horizon ∧
          (f.span 9).toNat ≤ (f.span 12).toNat then
        some (.train l
          { width := f.span 9, period := f.span 12
            remaining := if f.half 15 = 0 then none else some (f.half 15)
            pending := none, begun := false })
      else none
    | none => none
  | .pattern =>
    match inRange 4 (f.at 1) with
    | some g => if f.patternMask = 0 then none else some (.pattern g f.patternMask f.patternLevels)
    | none => none

/-- The trigger of a POST, when the input and offset of an ON_CAPTURE lie in range (Table 4-5): no trigger
for ABSOLUTE and RELATIVE. -/
def RequestFrame.postTrigger (f : RequestFrame) (x : PostForm) : Option (Option CaptureTrigger) :=
  match x.mode with
  | .absolute => some none
  | .relative => some none
  | .onCapture =>
    match inRange 8 (f.at 4) with
    | some c =>
      if 1 ≤ (f.time 5).toNat ∧ (f.time 5).toNat ≤ 65535 then
        some (some ⟨c, (f.time 5).setWidth 16⟩)
      else none
    | none => none

/-- The due time of an ABSOLUTE or RELATIVE POST (R67), with T as it stands. -/
def RequestFrame.postDue (f : RequestFrame) (x : PostForm) (t : Time) : Time :=
  match x.mode with
  | .relative => t + f.time 5
  | .absolute => f.time 5
  | .onCapture => f.time 5

/-! ### The order body -/

/-- The kind of an order. -/
def OrderBody.kind : OrderBody → OrderKind
  | .step _ _ => .step
  | .pulse _ _ => .pulse
  | .train _ _ => .train
  | .pattern _ _ _ => .pattern

/-- The target lines of an order: its line, or for a PATTERN the lines of its mask (R58). -/
def OrderBody.targets : OrderBody → LineMask
  | .step l _ => lineMask l
  | .pulse l _ => lineMask l
  | .train l _ => lineMask l
  | .pattern g m _ => groupMaskLines g m

/-- The group of the target lines. -/
def OrderBody.group : OrderBody → GroupNo
  | .step l _ => groupOf l
  | .pulse l _ => groupOf l
  | .train l _ => groupOf l
  | .pattern g _ _ => g

/-- The phase an order takes when it becomes SCHEDULED: LEADING for a PULSE or TRAIN, none else (R67). -/
def OrderBody.firstPhase : OrderBody → Phase
  | .step _ _ => .absent
  | .pulse _ _ => .leading
  | .train _ _ => .leading
  | .pattern _ _ _ => .absent

end Sys2Proof.Machine
end

