-- ==== Sys2Proof/Machine/OrderOps.lean ====
section
/-! DEFINITION. The schedule's operations: slots and handles (R55 to R57), the schedule list and the armed
set (R61 to R63), the firing of an edge (R73 to R76, R84 to R91, R108, R109), its notices (R77, R78),
application at once (R69), and cancellation (R92, R97). -/

namespace Sys2Proof.Machine

/-! ### Slots, ages, places -/

/-- The lowest-numbered free slot (R55). -/
def State.lowestFree (s : State) : Option SlotNo :=
  (List.finRange 128).find? (fun i => (s.order i).isNone)

/-- The slots whose order satisfies `p`, ascending. -/
def State.slotsWith (s : State) (p : Order → Bool) : List SlotNo :=
  (List.finRange 128).filter (fun i =>
    match s.order i with
    | some o => p o
    | none => false)

/-- The order count of station `n`: the slots its orders occupy (R60). -/
def State.orderCount (s : State) (n : StationNo) : Nat :=
  (s.slotsWith (fun o => o.station == n)).length

/-- Some order exists, armed or scheduled and of any station (R12). -/
def State.anyOrder (s : State) : Bool := (List.finRange 128).any (fun i => (s.order i).isSome)

/-- The handle of the order in slot `i` (R56). -/
def State.handle (s : State) (i : SlotNo) : Handle := ⟨i, (s.slot i).generation⟩

/-- The age of an order: the post-sequence counter less its post sequence, mod 2^32 (R61). -/
def State.age (s : State) (o : Order) : Nat := (s.postSeq - o.postSeq).toNat

/-- The next edge time of an order; 0 for an ARMED order, as it is reported (R79). -/
def Order.nextEdge (o : Order) : Time :=
  match o.state with
  | .armed => 0
  | .scheduled t _ => t

/-- Order `a` stands before order `b` in the schedule list (R62): by the distance of the next edge time,
then the greater age first. -/
def State.standsBefore (s : State) (a b : Order) : Bool :=
  decide (s.distance a.nextEdge < s.distance b.nextEdge) ||
    (decide (s.distance a.nextEdge = s.distance b.nextEdge) && decide (s.age b < s.age a))

/-- Slot `i`, holding `o`, placed in a list of slots (R62). -/
def State.insertPlace (s : State) (o : Order) (i : SlotNo) : List SlotNo → List SlotNo
  | [] => [i]
  | j :: rest =>
    match s.order j with
    | some b => if s.standsBefore o b then i :: j :: rest else j :: s.insertPlace o i rest
    | none => j :: s.insertPlace o i rest

/-- The order `o` is written into slot `i` and placed in the schedule list, taken from its old place if it
had one (R62). -/
def State.placeOrder (s : State) (i : SlotNo) (o : Order) : State :=
  { s.setOrder i o with
    schedule := s.insertPlace o i (s.schedule.filter (fun j => j != i)) }

/-- The order in slot `i` is removed (R57): it leaves the schedule list or the armed set with its pending
revision, the slot becomes free and its generation advances. -/
def State.removeOrder (s : State) (i : SlotNo) : State :=
  { s.setSlot i ⟨(s.slot i).generation + 1, none⟩ with
    schedule := s.schedule.filter (fun j => j != i)
    armed := s.armed.map (fun l => l.filter (fun j => j != i)) }

/-- Every order in the given slots is removed. -/
def State.removeOrders (s : State) (l : List SlotNo) : State := l.foldl State.removeOrder s

/-- The slot of the live order of station `n` that a handle names (R56). -/
def State.liveOrder (s : State) (n : StationNo) (slot : SlotNo) (generation : Byte) :
    Option Order :=
  match s.order slot with
  | some o =>
    if (s.slot slot).generation = generation ∧ o.station = n then some o else none
  | none => none

/-! ### Notices about orders -/

/-- FIRED is asked for: notify FIRST or BOTH (R77). -/
def Notify.wantsFirst : Notify → Bool
  | .none => false
  | .first => true
  | .atEnd => false
  | .both => true

/-- ENDED COMPLETE and ENDED CANCELLED are asked for: notify END or BOTH (R78). -/
def Notify.wantsEnd : Notify → Bool
  | .none => false
  | .first => false
  | .atEnd => true
  | .both => true

/-- Why an edge is made: it is due (R73), or its order is applied at once at a POST or at a capture trigger
(R69). -/
inductive EdgeCause where
  | due
  | atPost
  | atTrigger
deriving DecidableEq, Repr

/-- FIRED, with edge time T, for an order whose first command was made: when notify asks for it and started
was no; not for an order applied at once at POST (R69, R77). -/
def State.fired (s : State) (cause : EdgeCause) (h : Handle) (o : Order) : State :=
  if cause != .atPost && o.notify.wantsFirst && !o.started then
    s.appendNotice o.station (.fired h o.tag o.body.kind s.tb.t)
  else s

/-- ENDED with the reason, when notify asks for it (R78). -/
def State.ended (s : State) (h : Handle) (o : Order) (reason : EndReason) : State :=
  if o.notify.wantsEnd then s.appendNotice o.station (.ended h o.tag reason s.tb.t) else s

/-- The removal of an order whose STEP, PULSE or PATTERN edge meets a TRIPPED group (R108). -/
def State.suppress (s : State) (i : SlotNo) (o : Order) : State :=
  (s.removeOrder i).appendNotice o.station (.suppressed (s.handle i) o.tag s.tb.t)

/-! ### Edges -/

/-- The command of an edge. A pair unit completes a gap ending at T before the command of an order due at T
reaches it (R25); a command of an order applied at once meets the gap as it stands (R26). -/
def State.edgeCommand (s : State) (cause : EdgeCause) (l : LineNo) (c : LineCommand) : State :=
  match cause with
  | .due => (s.completeGap (pairOf l)).command l c
  | .atPost => s.command l c
  | .atTrigger => s.command l c

/-- The command of a STEP's action (R20). -/
def StepAction.command : StepAction → LineCommand
  | .assert => .assert
  | .deassert => .deassert
  | .invert => .invert

/-- The edge of a STEP (R74). -/
def State.fireStep (s : State) (cause : EdgeCause) (i : SlotNo) (o : Order) (l : LineNo)
    (a : StepAction) : State :=
  if s.groupNormal (groupOf l) then
    ((s.edgeCommand cause l a.command).removeOrder i).fired cause (s.handle i) o
  else s.suppress i o

/-- The LEVEL commands of a PATTERN, one for each line of its mask (R76). -/
def State.patternCommands (s : State) (cause : EdgeCause) (g : GroupNo) (mask levels : BitVec 4) :
    State :=
  ([0, 1, 2, 3] : List (Fin 4)).foldl
    (fun s j =>
      if mask.getLsbD j.val then s.edgeCommand cause (groupLine g j) (.level (levels.getLsbD j.val))
      else s) s

/-- The edge of a PATTERN (R76). -/
def State.firePattern (s : State) (cause : EdgeCause) (i : SlotNo) (o : Order) (g : GroupNo)
    (mask levels : BitVec 4) : State :=
  if s.groupNormal g then
    ((s.patternCommands cause g mask levels).removeOrder i).fired cause (s.handle i) o
  else s.suppress i o

/-- The leading edge of a PULSE (R75). -/
def State.firePulseLeading (s : State) (cause : EdgeCause) (i : SlotNo) (o : Order) (l : LineNo)
    (width : Span) : State :=
  if s.groupNormal (groupOf l) then
    ((s.edgeCommand cause l .assert).placeOrder i
      { o with state := .scheduled (s.tb.t + width.setWidth 32) .trailing, started := true }).fired
      cause (s.handle i) o
  else s.suppress i o

/-- The trailing edge of a PULSE (R75): the reason is CANCELLED if its ending is yes. -/
def State.firePulseTrailing (s : State) (cause : EdgeCause) (i : SlotNo) (o : Order) (l : LineNo) :
    State :=
  if s.groupNormal (groupOf l) then
    ((s.edgeCommand cause l .deassert).removeOrder i).ended (s.handle i) o
      (if o.ending then .cancelled else .complete)
  else s.suppress i o

/-- A train ends at a period start (R86, R88): DEASSERT, removal and ENDED with the reason; in a TRIPPED
group no command, and ENDED SUPPRESSED whatever its notify setting (R109). -/
def State.endTrain (s : State) (cause : EdgeCause) (i : SlotNo) (o : Order) (l : LineNo)
    (reason : EndReason) : State :=
  if s.groupNormal (groupOf l) then
    ((s.edgeCommand cause l .deassert).removeOrder i).ended (s.handle i) o reason
  else
    (s.removeOrder i).appendNotice o.station (.ended (s.handle i) o.tag .suppressed s.tb.t)

/-- Step 4 of a period start, the width (R89), with the width and period in force: one command, the next
edge, begun yes; FIRED when the command is made (R91). In a TRIPPED group the cadence alone (R109). -/
def State.widthStep (s : State) (cause : EdgeCause) (i : SlotNo) (o : Order) (l : LineNo)
    (x : TrainRec) : State :=
  let begunTrain : OrderBody := .train l { x with begun := true }
  let next : OrderState :=
    if x.width = 0 ∨ x.width = x.period then .scheduled (s.tb.t + x.period.setWidth 32) .leading
    else .scheduled (s.tb.t + x.width.setWidth 32) .trailing
  let c : LineCommand := if x.width = 0 then .deassert else .assert
  if s.groupNormal (groupOf l) then
    ((s.edgeCommand cause l c).placeOrder i
      { o with body := begunTrain, state := next, started := true }).fired cause (s.handle i) o
  else
    s.placeOrder i { o with body := begunTrain, state := next }

/-- Step 1 of a period start, the count (R86): the remaining count after it, made when begun is yes and a
remaining count is present; `some none` where no count is kept, `none` when the count is exhausted. -/
def TrainRec.countStep (x : TrainRec) : Option (Option Half) :=
  match x.remaining with
  | none => some none
  | some n => if x.begun then (if n.toNat ≤ 1 then none else some (some (n - 1))) else some (some n)

/-- Step 2 of a period start, the revision (R87). -/
def TrainRec.revise (x : TrainRec) : TrainRec :=
  match x.pending with
  | none => x
  | some r => { x with width := r.width, period := r.period, pending := none }

/-- A period start (R85): count, revision, ending and width, in that order. -/
def State.periodStart (s : State) (cause : EdgeCause) (i : SlotNo) (o : Order) (l : LineNo)
    (x : TrainRec) : State :=
  match x.countStep with
  | none => s.endTrain cause i o l .complete
  | some remaining =>
    if o.ending then s.endTrain cause i o l .cancelled
    else s.widthStep cause i o l ({ x with remaining := remaining }.revise)

/-- A trailing edge of a train (R90): DEASSERT, and the next period start is T + (period − width). -/
def State.trainTrailing (s : State) (cause : EdgeCause) (i : SlotNo) (o : Order) (l : LineNo)
    (x : TrainRec) : State :=
  (s.edgeCommand cause l .deassert).placeOrder i
    { o with state := .scheduled (s.tb.t + (x.period.setWidth 32 - x.width.setWidth 32)) .leading }

/-- The next edge of the order in slot `i` is made at T (R73). -/
def State.fireEdge (s : State) (cause : EdgeCause) (i : SlotNo) (o : Order) : State :=
  match o.body with
  | .step l a => s.fireStep cause i o l a
  | .pattern g mask levels => s.firePattern cause i o g mask levels
  | .pulse l width =>
    match o.state with
    | .scheduled _ .trailing => s.firePulseTrailing cause i o l
    | .scheduled _ .leading => s.firePulseLeading cause i o l width
    | .scheduled _ .absent => s.firePulseLeading cause i o l width
    | .armed => s.firePulseLeading cause i o l width
  | .train l x =>
    match o.state with
    | .scheduled _ .trailing => s.trainTrailing cause i o l x
    | .scheduled _ .leading => s.periodStart cause i o l x
    | .scheduled _ .absent => s.periodStart cause i o l x
    | .armed => s.periodStart cause i o l x

/-- The order's next edge time is T. -/
def State.orderDue (s : State) (i : SlotNo) : Bool :=
  match s.order i with
  | some o =>
    match o.state with
    | .scheduled t _ => t == s.tb.t
    | .armed => false
  | none => false

/-- The slots due now, in list order (R73). -/
def State.dueSlots (s : State) : List SlotNo := s.schedule.filter s.orderDue

/-- The order in slot `i` is fired, if it still stands there due. -/
def State.fireDueSlot (s : State) (i : SlotNo) : State :=
  match s.order i with
  | some o => if s.orderDue i then s.fireEdge .due i o else s
  | none => s

/-- Every order whose next edge time is T is fired, one by one, in list order (R73). -/
def State.fireDue (s : State) : State := s.dueSlots.foldl State.fireDueSlot s

/-- The order `o` in slot `i` is applied at once, at T (R69): after the orders due at T, as if its first
edge were due at T. -/
def State.applyAtOnce (s : State) (cause : EdgeCause) (i : SlotNo) (o : Order) : State :=
  s.fireEdge cause i o

/-! ### Cancellation -/

/-- The order is in its asserted part (R92). -/
def Order.assertedPart (o : Order) : Bool :=
  match o.state, o.body with
  | .scheduled _ .trailing, .pulse _ _ => true
  | .scheduled _ .trailing, .train _ _ => true
  | .scheduled _ .leading, .train _ x => x.begun && x.width == x.period
  | _, _ => false

/-- The line of a STEP, PULSE or TRAIN. -/
def OrderBody.line : OrderBody → Option LineNo
  | .step l _ => some l
  | .pulse l _ => some l
  | .train l _ => some l
  | .pattern _ _ _ => none

/-- CANCEL NOW of the order in slot `i` (R97): DEASSERT first if it is in its asserted part and its group
is NORMAL (the group stage withholds it in a TRIPPED group), then the removal. -/
def State.cancelOrder (s : State) (i : SlotNo) : State :=
  match s.order i with
  | none => s
  | some o =>
    match o.assertedPart, o.body.line with
    | true, some l => (s.command l .deassert).removeOrder i
    | _, _ => s.removeOrder i

/-- The slots of station `n`'s orders that target a line of the mask (R49, R100). -/
def State.slotsOn (s : State) (n : StationNo) (m : LineMask) : List SlotNo :=
  s.slotsWith (fun o => o.station == n && (o.body.targets &&& m) != 0)

end Sys2Proof.Machine
end

