-- ==== Sys2Proof/Machine/CaptureOps.lean ====
section
/-! DEFINITION. The capture unit's operations: head removal and discard (R124, R125), acceptance (R122), the
trigger of an armed order (R129, R130), a sample of an input (R115 to R117), the end of sampling (R118),
and a station's part at teardown (R131). -/

namespace Sys2Proof.Machine

/-! ### The journal -/

/-- Head removal (R125): records leave the head while their reader sets are empty. -/
def State.headRemoval (s : State) : State :=
  { s with journal := s.journal.dropWhile (fun r => r.readers == 0) }

/-- The lost counts of the stations in a reader set rise by 1, saturating at 255 (R124). -/
def State.countLost (s : State) (readers : StationSet) : State :=
  ((List.finRange 4).filter (inSet readers)).foldl
    (fun s n => s.setLost n (satInc (s.lostOf n))) s

/-- Step 1 of an acceptance: a journal of 64 records loses its head, and head removal runs (R124). -/
def State.makeRoom (s : State) : State :=
  if s.journal.length < Config.journalRecords then s
  else
    match s.journal with
    | [] => s
    | r :: rest => ({ s with journal := rest }.countLost r.readers).headRemoval

/-- Step 2 of an acceptance: a record joins the tail with the counter's value and the input's subscribers,
and the counter advances (R122, R123). -/
def State.appendRecord (s : State) (c : InputNo) (d : Direction) (e : Time) : State :=
  { s with
    journal := s.journal ++ [⟨s.captureSeq, c, d, e, (s.input c).subscribers⟩]
    captureSeq := s.captureSeq + 1 }

/-! ### Triggers -/

/-- An armed order is triggered by an edge with edge time `e` (R129, R130): it is scheduled when its due
time is in the future, and by its late policy applied at once or ended LATE when it is late. -/
def State.trigger (e : Time) (s : State) (i : SlotNo) : State :=
  match s.order i with
  | none => s
  | some o =>
    match o.state, o.trigger with
    | .armed, some tr =>
      match s.classify (e + tr.offset.setWidth 32), o.late with
      | .late, .refuse =>
        (s.removeOrder i).appendNotice o.station (.ended (s.handle i) o.tag .late s.tb.t)
      | .late, .fire =>
        let o' := { o with state := .scheduled s.tb.t o.body.firstPhase }
        (s.fireDue.setOrder i o').applyAtOnce .atTrigger i o'
      | .future, _ =>
        s.placeOrder i
          { o with state := .scheduled (e + tr.offset.setWidth 32) o.body.firstPhase }
      | .beyond, _ =>
        s.placeOrder i
          { o with state := .scheduled (e + tr.offset.setWidth 32) o.body.firstPhase }
    | _, _ => s

/-- Step 4 of an acceptance: the input's armed list is emptied and each of its orders triggered, in list
order (R129). -/
def State.triggerAll (s : State) (c : InputNo) (e : Time) : State :=
  (s.armedOn c).foldl (State.trigger e) (s.setArmed c [])

/-- The acceptance of an edge on input `c` (R122): room, record, CAPTURE_READY for each reader whose unread
count goes from 0 to 1 (R126), triggers. -/
def State.accept (s : State) (c : InputNo) (d : Direction) (e : Time) : State :=
  let roomy := s.makeRoom
  let ready := (roomy.appendRecord c d e).appendNotices
    (fun n => inSet (roomy.input c).subscribers n && roomy.unread n == 0)
    (.captureReady roomy.captureSeq c)
  ready.triggerAll c e

/-! ### Samples -/

/-- The direction of a transition to `level`. -/
def directionTo : Level → Direction
  | .high => .rising
  | .low => .falling

/-- The edges setting selects the transition (R116). -/
def Edges.selects : Edges → Direction → Bool
  | .both, _ => true
  | .rising, .rising => true
  | .rising, .falling => false
  | .falling, .rising => false
  | .falling, .falling => true

/-- The state of input `c` is set. -/
def State.setInputState (s : State) (c : InputNo) (x : InputState) : State :=
  s.setInput c { s.input c with state := x }

/-- The tick at which the filter of an edge closes: e + f (R117). -/
def closeTime (edge : EdgeInFilter) (settings : InputSettings) : Time :=
  edge.edgeTime + settings.filter.setWidth 32

/-- A sample of a WATCHING input that shows a transition to `level` (R116). -/
def State.transition (s : State) (c : InputNo) (x : InputSettings) (reference level : Level) : State :=
  if x.edges.selects (directionTo level) then
    if x.filter = 0 then
      (s.setInputState c (.watching (some level))).accept c (directionTo level) s.tb.t
    else
      s.setInputState c (.filtering reference ⟨directionTo level, s.tb.t, level⟩)
  else s.setInputState c (.watching (some level))

/-- A sample of a FILTERING input (R117): at the close it accepts or drops the edge; before it, the prior
level drops the edge. -/
def State.filterSample (s : State) (c : InputNo) (x : InputSettings) (reference : Level)
    (edge : EdgeInFilter) (level : Level) : State :=
  if s.tb.t = closeTime edge x then
    if level = edge.newLevel then
      (s.setInputState c (.watching (some level))).accept c edge.direction edge.edgeTime
    else s.setInputState c (.watching (some reference))
  else if level = reference then s.setInputState c (.watching (some reference))
  else s

/-- A sample of input `c` (R115): taken while the timebase is RUNNING, of an input that is not IDLE. -/
def State.sample (s : State) (c : InputNo) (level : Level) : State :=
  if s.running then
    match (s.input c).state, (s.input c).settings with
    | .watching none, _ => s.setInputState c (.watching (some level))
    | .watching (some reference), some x =>
      if level = reference then s else s.transition c x reference level
    | .filtering reference edge, some x => s.filterSample c x reference edge level
    | _, _ => s
  else s

/-- The filter of input `c` closes at T (R117): the level its close is due to show if no sample has shown
another since, which is the new level. -/
def State.closingLevel (s : State) (c : InputNo) : Option Level :=
  match (s.input c).state, (s.input c).settings with
  | .filtering _ edge, some x => if s.tb.t = closeTime edge x then some edge.newLevel else none
  | _, _ => none

/-- The timebase leaves RUNNING (R118): an edge in filter is abandoned, and references become none. -/
def InputRec.stopSampling (r : InputRec) : InputRec :=
  match r.state with
  | .idle => r
  | .watching _ => { r with state := .watching none }
  | .filtering _ _ => { r with state := .watching none }

/-- Every input stops being sampled (R118). -/
def State.stopSampling (s : State) : State :=
  { s with inputs := s.inputs.map InputRec.stopSampling }

/-! ### Leaving -/

/-- Station `n` leaves the subscribers of an input; with the last of them the input becomes IDLE (R114). -/
def InputRec.leave (n : StationNo) (r : InputRec) : InputRec :=
  if dropStation r.subscribers n = 0 then InputRec.powerOn
  else { r with subscribers := dropStation r.subscribers n }

/-- Station `n` leaves the reader set of a record. -/
def JournalRec.leave (n : StationNo) (r : JournalRec) : JournalRec :=
  { r with readers := dropStation r.readers n }

/-- The capture unit's part of the teardown of station `n` (R131). -/
def State.captureTeardown (s : State) (n : StationNo) : State :=
  { s with
    inputs := s.inputs.map (InputRec.leave n)
    journal := s.journal.map (JournalRec.leave n)
    journalLost := s.journalLost.set n 0 }.headRemoval

end Sys2Proof.Machine
end

