-- ==== Sys2Proof/Machine/ClaimOps.lean ====
section
/-! DEFINITION. The claim table's operations: claim ids (R37), grants (R39, R44), the grant scan (R43), the
giving up of a held claim (R49), and a station's part at teardown (R51). -/

namespace Sys2Proof.Machine

/-- The id is held by an existing claim, held or waiting (R37). -/
def State.claimIdUsed (s : State) (id : Byte) : Bool :=
  s.held.any (fun c => c.id == id) || s.waiting.any (fun w => w.claim.id == id)

/-- The first id the counter reaches that no existing claim holds (R37), within `fuel` further steps. -/
def State.idFrom (s : State) : Nat → Byte → Byte
  | 0, id => id
  | fuel + 1, id => if s.claimIdUsed id then s.idFrom fuel (stepForward id) else id

/-- The id a CLAIM accepted now is given (R37). -/
def State.nextClaimId (s : State) : Byte := s.idFrom 254 (stepForward s.claimCounter)

/-- A line is granted to claim `id`: its holder is set, and its drive turns ON at the first grant since
power-on reset (R18, R39). -/
def State.grantLine (id : Byte) (s : State) (l : LineNo) : State :=
  s.setLine l { s.line l with
    holder := some id
    driveOn := if (s.line l).granted then (s.line l).driveOn else true
    granted := true }

/-- A claim becomes HELD: it joins the held claims and its lines take its id (R39, R44). -/
def State.grant (s : State) (c : Claim) : State :=
  (linesOf c.lines).foldl (State.grantLine c.id) { s with held := s.held ++ [c] }

/-- Every line of the mask is free. -/
def State.allFree (s : State) (m : LineMask) : Bool := (linesOf m).all s.free

/-- Some claim of the list names a line of the mask. -/
def namesAny (l : List WaitingClaim) (m : LineMask) : Bool :=
  l.any (fun w => (w.claim.lines &&& m) != 0)

/-- One walk of the grant scan (R43) over the claims `todo`, oldest first, with the older claims `kept`
still on the list: the state after its grants, the claims left on the list, and whether it granted. Each
grant appends GRANTED (R44). -/
def State.grantWalk (s : State) (kept : List WaitingClaim) :
    List WaitingClaim → State × List WaitingClaim × Bool
  | [] => (s, kept, false)
  | w :: rest =>
    if s.allFree w.claim.lines && !namesAny kept w.claim.lines then
      let r := ((s.grant w.claim).appendNotice w.claim.station
        (.granted w.claim.id w.claim.lines)).grantWalk kept rest
      (r.1, r.2.1, true)
    else s.grantWalk (kept ++ [w]) rest

/-- The walks of the grant scan: made again while a walk granted at least one claim. -/
def State.grantScanFrom (s : State) : Nat → State
  | 0 => s
  | fuel + 1 =>
    let r := s.grantWalk [] s.waiting
    let s' := { r.1 with waiting := r.2.1 }
    if r.2.2 then s'.grantScanFrom fuel else s'

/-- The grant scan (R43): a walk that grants takes at least one claim off the list, so one walk more than
there are claims is enough. -/
def State.grantScan (s : State) : State := s.grantScanFrom (s.waiting.length + 1)

/-- A line becomes free; it keeps the rest of its record (R53). -/
def State.freeLine (s : State) (l : LineNo) : State :=
  s.setLine l { s.line l with holder := none }

/-- A HELD claim gives its lines up: the action is applied, the lines become free, and the claim leaves the
table (steps 2 and 3 of R49, step 1 of R51). -/
def State.giveUp (s : State) (c : Claim) (action : LineAction) : State :=
  let s := (linesOf c.lines).foldl State.freeLine (s.applyAction c.lines action)
  { s with held := s.held.filter (fun x => x.id != c.id) }

/-- The claim table's part of the teardown of station `n` (R51): its HELD claims are revoked with their
loss actions, its WAITING claims leave, and one grant scan runs. -/
def State.claimTeardown (s : State) (n : StationNo) : State :=
  let s := (s.held.filter (fun c => c.station == n)).foldl (fun s c => s.giveUp c c.loss) s
  { s with waiting := s.waiting.filter (fun w => w.claim.station != n) }.grantScan

end Sys2Proof.Machine
end

