-- ==== Sys2Proof/Machine/SessionOps.lean ====
section
/-! DEFINITION. The session check (R135), the restart of a lease (R136), the parts of a teardown (R145), and
the port's part of it (R161). -/

namespace Sys2Proof.Machine

/-- The session check (R135): the outcome of a refusal, or none when the request passes. -/
def State.sessionRefusal (s : State) (n : StationNo) (c : RequestCode) (session : Byte) :
    Option ReplyCode :=
  match c with
  | .bind => if s.isBound n then some .bound else none
  | .portStatus => none
  | _ =>
    match (s.station n).session with
    | .unbound => some .notBound
    | .lapsed => some .staleSession
    | .bound => if (s.station n).number = some session then none else some .staleSession

/-- The lease timer of a BOUND station is set again to its lease period (R136). -/
def State.restartLease (s : State) (n : StationNo) : State :=
  s.setStation n { s.station n with leaseTimer := (s.station n).leasePeriod }

/-- The restart at the taking of an executed request: for a BOUND station whose session number the frame
carries (R136). -/
def State.restartIfCurrent (s : State) (n : StationNo) (session : Byte) : State :=
  if s.isBound n && (s.station n).number == some session then s.restartLease n else s

/-- The restart at the taking of a replayed request: for a BOUND station, whatever the session field (R136,
R156). -/
def State.restartIfBound (s : State) (n : StationNo) : State :=
  if s.isBound n then s.restartLease n else s

/-! ### Teardown -/

/-- Part 1 of a teardown (R145): the session state becomes LAPSED, keeping the number, or UNBOUND,
discarding it (R134); lease timer and period are discarded. -/
def State.endSession (s : State) (n : StationNo) (lapsed : Bool) : State :=
  s.setStation n { s.station n with
    session := if lapsed then .lapsed else .unbound
    number := if lapsed then (s.station n).number else none
    leasePeriod := none
    leaseTimer := none }

/-- Part 2 of a teardown: every order of the station is removed and its quota returns (R81). -/
def State.orderTeardown (s : State) (n : StationNo) : State :=
  let s := s.removeOrders (s.slotsWith (fun o => o.station == n))
  s.setStation n { s.station n with quota := 0 }

/-- Part 6 of a teardown: the arming station becomes none if it is the station (R11). -/
def State.disarm (s : State) (n : StationNo) : State :=
  if s.tb.arming = some n then { s with tb := { s.tb with arming := none } } else s

/-- The parts of a teardown other than the port's (R145, R155), in the order of R145. -/
def State.teardown (s : State) (n : StationNo) (lapsed : Bool) : State :=
  ((((s.endSession n lapsed).orderTeardown n).claimTeardown n).captureTeardown n).disarm n

/-- The port's part of a teardown (R161): the request queue, the notice queue, the last request and the
reply cache are emptied; the reply slot too, except for the reply of an UNBIND. -/
def PortRec.teardown (p : PortRec) (keepReply : Bool) : PortRec :=
  { p with
    requests := []
    notices := []
    noticesLost := 0
    lastRequest := none
    replyCache := none
    replySlot := if keepReply then p.replySlot else none }

/-- The port's part of the teardown of station `n`. -/
def State.portTeardown (s : State) (n : StationNo) (keepReply : Bool) : State :=
  s.setPort n ((s.port n).teardown keepReply)

/-! ### Expiry -/

/-- A lease boundary has brought the lease timer of the BOUND station `n` to 0, and its expiry has not been made
(R142). -/
def State.leaseOwed (s : State) (n : StationNo) : Bool :=
  s.isBound n && (s.station n).leaseTimer == some 0

/-- The lease timer of station `n` has reached 0: the station is torn down and becomes LAPSED (R142). -/
def State.lapse (s : State) (n : StationNo) : State :=
  if s.leaseOwed n then (s.teardown n true).portTeardown n false else s

end Sys2Proof.Machine
end

