-- ==== Sys2Proof/Machine/RequestOps.lean ====
section
/-! DEFINITION. The taking of a request (R155): which request can be taken, the replay (R156), the common
checks (R168), the placing of the reply (R157), and the shape every request row shares. -/

namespace Sys2Proof.Machine

/-- What the owner of a request answers: the state it leaves, the outcome and the reply's payload, and
whether the request ended its session (UNBIND). -/
structure OwnerReply where
  /-- The state after the owner's part. -/
  state : State
  /-- The outcome. -/
  outcome : ReplyCode
  /-- The payload of the reply. -/
  payload : List Byte
  /-- The request has ended its session, so the port's part of the teardown follows the reply (R155). -/
  endsSession : Bool := false

/-- A refusal by the owner's own checks, which changes no state (R170), with the payload given. -/
def refuse (s : State) (c : ReplyCode) (payload : List Byte := []) : OwnerReply :=
  { state := s, outcome := c, payload := payload }

/-- The request that can be taken on port `p` (R155): the head of the request queue, while the reply slot is
empty; none while power-on reset lasts (R177). -/
def State.takeable (s : State) (p : StationNo) : Option RequestFrame :=
  if s.inReset then none
  else if (s.port p).replySlot.isSome then none
  else (s.port p).requests.head?

/-- The request leaves the queue. -/
def State.dequeue (s : State) (p : StationNo) : State :=
  s.setPort p { s.port p with requests := (s.port p).requests.tail }

/-- The reply with which a request is replayed (R156): its sequence and code equal the last request, and the
cache holds a reply. -/
def State.replayOf (s : State) (p : StationNo) (f : RequestFrame) : Option Reply :=
  if (s.port p).lastRequest = some (f.sequence, f.code) then (s.port p).replyCache else none

/-- The reply to a request (R166): sequence, session and code as received. -/
def replyTo (f : RequestFrame) (outcome : ReplyCode) (payload : List Byte) : Reply :=
  { sequence := f.sequence, session := f.session, code := f.code, outcome := outcome
    payload := payload }

/-- Step 4 of R155: the reply is placed in the slot, the last request and the reply cache take it, and an
idle transmitter begins it (R157, R158). -/
def State.answer (s : State) (p : StationNo) (f : RequestFrame) (outcome : ReplyCode)
    (payload : List Byte) : State :=
  (s.setPort p { s.port p with
    replySlot := some (replyTo f outcome payload)
    lastRequest := some (f.sequence, f.code)
    replyCache := some (replyTo f outcome payload) }).transmitChoice p

/-- A replayed request (R156): the cached reply is placed in the slot as it was first made, and the lease of
a BOUND station is restarted; nothing else changes. -/
def State.replay (s : State) (p : StationNo) (r : Reply) : State :=
  let s := s.restartIfBound p
  (s.setPort p { s.port p with replySlot := some r }).transmitChoice p

/-- The common checks (R168): code and length, then the session. -/
def State.commonRefusal (s : State) (p : StationNo) (f : RequestFrame) : Option ReplyCode :=
  match f.request with
  | none => some .unknownRequest
  | some c =>
    if f.payload.length = c.payloadLength then s.sessionRefusal p c f.session
    else some .badFormat

/-- Steps 1 to 4 of R155 for a request that is not replayed, with the owner's part as given. -/
def State.execute (s : State) (p : StationNo) (f : RequestFrame)
    (owner : StationNo → RequestFrame → State → OwnerReply) : State :=
  let s := s.restartIfCurrent p f.session
  match s.commonRefusal p f with
  | some outcome => s.answer p f outcome []
  | none =>
    let r := owner p f s
    if r.endsSession then (r.state.answer p f r.outcome r.payload).portTeardown p true
    else r.state.answer p f r.outcome r.payload

/-- The request at the head of port `p`'s queue is served, when the row is the row of that request (R155): replayed
or executed. Where no such request can be taken the event does not occur, and nothing changes (assumption 1). -/
def State.serve (s : State) (p : StationNo) (row : RequestFrame → Bool)
    (owner : StationNo → RequestFrame → State → OwnerReply) : State :=
  match s.takeable p with
  | none => s
  | some f =>
    if row f then
      match s.replayOf p f with
      | some r => (s.dequeue p).replay p r
      | none => (s.dequeue p).execute p f owner
    else s

/-- The taking of the request at the head of port `p`'s queue, when the row is the row of that request (R155). Where
a lease boundary that has passed brought the station's timer to 0, its expiry comes first and discards the request
(R142, R143): the lease is not restarted. -/
def State.take (s : State) (p : StationNo) (row : RequestFrame → Bool)
    (owner : StationNo → RequestFrame → State → OwnerReply) : State :=
  if s.leaseOwed p && (s.takeable p).any row then s.lapse p else s.serve p row owner

/-- The row of a request that has one row in the table. -/
def rowOf (c : RequestCode) (f : RequestFrame) : Bool := f.request == some c

/-- The row of a request that has two rows in the table, told apart by payload byte `i`: a frame whose byte
names the other row's value is not this row's. A frame whose byte names neither, or is not there, is
refused, with one outcome whichever of the two rows takes it (assumption 5). -/
def rowOfEither (c : RequestCode) (i : Nat) (other : Byte) (f : RequestFrame) : Bool :=
  f.request == some c && f.payload[i]? != some other

/-- A command of a part that is not held in power-on reset: while reset lasts no frame, notice, tick or
lease boundary occurs and no pin is sampled (R177). -/
def working (s : State) (s' : State) : Host.Outcome State Fault Refusal :=
  .next (if s.inReset then s else s')

end Sys2Proof.Machine
end

