-- ==== Sys2Proof/Machine/CaptureUnit.lean ====
section
/-! DEFINITION. The capture unit (07_capture_inputs_and_the_capture_journal.md): SUBSCRIBE, UNSUBSCRIBE
and READ_CAPTURES. -/

namespace Sys2Proof.Machine

/-- The input and settings a SUBSCRIBE names, when in range (check 1 of R119; every filter byte is). -/
def RequestFrame.subscribeForm (f : RequestFrame) : Option (InputNo × InputSettings) :=
  match inRange 8 (f.at 0), Edges.ofByte (f.at 1) with
  | some c, some e => some (c, ⟨e, f.at 2⟩)
  | _, _ => none

/-- The reply payload of SUBSCRIBE: settings, and whether the input was IDLE (R119). -/
def subscribePayload (x : InputSettings) (wasIdle : Bool) : List Byte :=
  [x.edges.byte, x.filter, yesNo wasIdle]

/-- Station `p` joins the subscribers of an input (R119): an input without subscribers takes the settings
and becomes WATCHING with reference level none. -/
def InputRec.join (r : InputRec) (p : StationNo) (x : InputSettings) : InputRec :=
  if r.subscribers = 0 then ⟨some x, oneStation p, .watching none⟩
  else { r with subscribers := r.subscribers ||| oneStation p }

/-- The owner's part of SUBSCRIBE (R119). On an input with subscribers the settings given must equal those
in force; a station already subscribed changes nothing. -/
def subscribeOwner (p : StationNo) (f : RequestFrame) (s : State) : OwnerReply :=
  match f.subscribeForm with
  | none => refuse s .badValue
  | some (c, x) =>
    match (s.input c).settings with
    | some inForce =>
      if (s.input c).subscribers = 0 then
        { state := s.setInput c ((s.input c).join p x), outcome := .ok
          payload := subscribePayload x true }
      else if x = inForce then
        { state := s.setInput c ((s.input c).join p x), outcome := .ok
          payload := subscribePayload x false }
      else refuse s .conflict (subscribePayload inForce false)
    | none =>
      { state := s.setInput c ((s.input c).join p x), outcome := .ok
        payload := subscribePayload x ((s.input c).subscribers == 0) }

/-- SUBSCRIBE (R119). -/
def execSubscribe (p : StationNo) (s : State) : Host.Outcome State Fault Refusal :=
  .next (s.take p (rowOf .subscribe) subscribeOwner)

/-- The slots of the ARMED orders of station `p` whose trigger names input `c` (step 1 of R120). -/
def State.armedSlots (s : State) (p : StationNo) (c : InputNo) : List SlotNo :=
  s.slotsWith (fun o => o.station == p && o.state == .armed && o.trigger.map (·.input) == some c)

/-- Station `p` leaves the reader set of every record of input `c` (step 2 of R120). -/
def JournalRec.leaveInput (p : StationNo) (c : InputNo) (r : JournalRec) : JournalRec :=
  if r.input = c then r.leave p else r

/-- An accepted UNSUBSCRIBE in its four steps (R120). -/
def State.unsubscribe (s : State) (p : StationNo) (c : InputNo) : State :=
  let s := s.removeOrders (s.armedSlots p c)
  let s := { s with journal := s.journal.map (JournalRec.leaveInput p c) }
  (s.setInput c ((s.input c).leave p)).headRemoval

/-- The owner's part of UNSUBSCRIBE (R120). -/
def unsubscribeOwner (p : StationNo) (f : RequestFrame) (s : State) : OwnerReply :=
  match inRange 8 (f.at 0) with
  | none => refuse s .badValue
  | some c =>
    if !inSet (s.input c).subscribers p then refuse s .noSubscription
    else
      { state := s.unsubscribe p c, outcome := .ok
        payload := [byteOf (s.armedSlots p c).length] }

/-- UNSUBSCRIBE (R120). -/
def execUnsubscribe (p : StationNo) (s : State) : Host.Outcome State Fault Refusal :=
  .next (s.take p (rowOf .unsubscribe) unsubscribeOwner)

/-- The records a read of up to `k` takes for station `n`: those whose reader set names it, oldest first
(step 1 of R127). -/
def takenRecords (n : StationNo) (k : Nat) (l : List JournalRec) : List JournalRec :=
  (l.filter (fun r => inSet r.readers n)).take k

/-- The journal with station `n` out of the reader set of the first `k` records that name it (step 2 of
R127). -/
def readOut (n : StationNo) : Nat → List JournalRec → List JournalRec
  | 0, l => l
  | _ + 1, [] => []
  | k + 1, r :: rest =>
    if inSet r.readers n then r.leave n :: readOut n k rest else r :: readOut n (k + 1) rest

/-- A capture record as a reply carries it (Table 10-10). -/
def JournalRec.bytes (r : JournalRec) : List Byte :=
  bytes16 r.seq ++ [BitVec.ofBool r.direction.bit ++ 0#4 ++ BitVec.ofNat 3 r.input.val] ++
    bytes32 r.edgeTime

/-- An accepted READ_CAPTURES (steps 2 to 4 of R127). -/
def State.readCaptures (s : State) (n : StationNo) (k : Nat) : State :=
  { s with journal := readOut n k s.journal, journalLost := s.journalLost.set n 0 }.headRemoval

/-- The owner's part of READ_CAPTURES (R127): the records in journal order, the unread count after the read,
and the lost count read. -/
def readCapturesOwner (p : StationNo) (f : RequestFrame) (s : State) : OwnerReply :=
  if 1 ≤ (f.at 0).toNat ∧ (f.at 0).toNat ≤ 6 then
    { state := s.readCaptures p (f.at 0).toNat
      outcome := .ok
      payload := (takenRecords p (f.at 0).toNat s.journal).flatMap JournalRec.bytes ++
        [byteOf (s.unread p - (takenRecords p (f.at 0).toNat s.journal).length), s.lostOf p] }
  else refuse s .badValue

/-- READ_CAPTURES (R127). -/
def execReadCaptures (p : StationNo) (s : State) : Host.Outcome State Fault Refusal :=
  .next (s.take p (rowOf .readCaptures) readCapturesOwner)

end Sys2Proof.Machine
end

