-- ==== Sys2Proof/Machine/Claims.lean ====
section
/-! DEFINITION. The claim table's requests and its expiry (03_the_claim_table.md): CLAIM and
RELEASE, and the work of WAIT_EXPIRY. -/

namespace Sys2Proof.Machine

/-- For every bound pair the mask names both its lines or neither (check 2 of R38). -/
def State.pairsWhole (s : State) (m : LineMask) : Bool :=
  (List.finRange 8).all (fun k => !s.pairBound k || named m (primary k) == named m (partner k))

/-- The checks of CLAIM before the fourth, in order (R38). -/
def claimRefusal (p : StationNo) (f : RequestFrame) (s : State) : Option ReplyCode :=
  if f.half 0 = 0 ∨ LineAction.ofByte (f.at 2) = none then some .badValue
  else if !s.pairsWhole (f.half 0) then some .paired
  else if (linesOf (f.half 0)).any (s.holds p) then some .overlap
  else none

/-- The claim that a CLAIM makes, with the id it is given (R37). -/
def State.newClaim (s : State) (p : StationNo) (f : RequestFrame) : Claim :=
  { id := s.nextClaimId, station := p, lines := f.half 0
    loss := (LineAction.ofByte (f.at 2)).getD .hold }

/-- The waiting list is full for station `p` (R41). -/
def State.waitFull (s : State) (p : StationNo) : Bool :=
  decide (Config.waitingList ≤ s.waiting.length) ||
    decide (Config.waitingPerStation ≤ (s.waiting.filter (fun w => w.claim.station == p)).length)

/-- The owner's part of CLAIM: refused, granted at once (R39), refused HELD_ELSEWHERE (R40), or queued or
refused WAIT_FULL (R41). -/
def claimOwner (p : StationNo) (f : RequestFrame) (s : State) : OwnerReply :=
  match claimRefusal p f s with
  | some outcome => refuse s outcome (0 :: bytes16 (f.half 0))
  | none =>
    if s.allFree (f.half 0) && !namesAny s.waiting (f.half 0) then
      { state := { s with claimCounter := s.nextClaimId }.grant (s.newClaim p f)
        outcome := .ok
        payload := s.nextClaimId :: bytes16 (f.half 0) }
    else if f.half 3 = 0 then refuse s .heldElsewhere (0 :: bytes16 (f.half 0))
    else if s.waitFull p then refuse s .waitFull (0 :: bytes16 (f.half 0))
    else
      { state := { s with
          claimCounter := s.nextClaimId
          waiting := s.waiting ++ [⟨s.newClaim p f, f.half 3⟩] }
        outcome := .queued
        payload := s.nextClaimId :: bytes16 (f.half 0) }

/-- CLAIM (R38). -/
def execClaim (p : StationNo) (s : State) : Host.Outcome State Fault Refusal :=
  .next (s.take p (rowOf .claim) claimOwner)

/-- The HELD claim of station `p` with this id. -/
def State.heldBy (s : State) (p : StationNo) (id : Byte) : Option Claim :=
  s.held.find? (fun c => c.id == id && c.station == p)

/-- Station `p` has a WAITING claim with this id. -/
def State.waitsAs (s : State) (p : StationNo) (id : Byte) : Bool :=
  s.waiting.any (fun w => w.claim.id == id && w.claim.station == p)

/-- The withdrawal of a WAITING claim (R48). -/
def State.withdraw (s : State) (p : StationNo) (id : Byte) : State :=
  { s with waiting :=
      s.waiting.filter (fun w => !(w.claim.id == id && w.claim.station == p)) }.grantScan

/-- The release of a HELD claim in its four steps (R49). -/
def State.releaseClaim (s : State) (p : StationNo) (c : Claim) (action : LineAction) : State :=
  ((s.removeOrders (s.slotsOn p c.lines)).giveUp c action).grantScan

/-- The owner's part of RELEASE (R47 to R49). -/
def releaseOwner (p : StationNo) (f : RequestFrame) (s : State) : OwnerReply :=
  match LineAction.ofByte (f.at 1) with
  | none => refuse s .badValue
  | some action =>
    match s.heldBy p (f.at 0) with
    | some c =>
      { state := s.releaseClaim p c action
        outcome := .ok
        payload := [byteOf (s.slotsOn p c.lines).length] }
    | none =>
      if s.waitsAs p (f.at 0) then
        { state := s.withdraw p (f.at 0), outcome := .ok, payload := [0] }
      else refuse s .notHolder

/-- RELEASE (R49). -/
def execRelease (p : StationNo) (s : State) : Host.Outcome State Fault Refusal :=
  .next (s.take p (rowOf .release) releaseOwner)

/-- The waiting claims whose deadline has reached 0, in the order of the list. -/
def State.expired (s : State) : List WaitingClaim := s.waiting.filter (fun w => w.deadline == 0)

/-- WAIT_EXPIRED for the station of an expired claim (R45). -/
def State.announceExpiry (s : State) (w : WaitingClaim) : State :=
  s.appendNotice w.claim.station (.waitExpired w.claim.id w.claim.lines)

/-- The expiry of waiting claims (R45): they leave the list and the table, each sends WAIT_EXPIRED in the
order of the list, and one grant scan follows them all. -/
def State.expireWaits (s : State) : State :=
  if s.expired = [] then s
  else
    (s.expired.foldl State.announceExpiry
      { s with waiting := s.waiting.filter (fun w => w.deadline != 0) }).grantScan

end Sys2Proof.Machine
end

