-- ==== Sys2Proof/Machine/GuardUnit.lean ====
section
/-! DEFINITION. The guard unit (06_guard_inputs_and_trips.md): GUARD_MAP and REARM, and
the work of an activation. -/

namespace Sys2Proof.Machine

/-- The checks of GUARD_MAP, in order (R103). -/
def guardMapChecks (f : RequestFrame) (s : State) : Except ReplyCode (GroupNo × GuardMap) :=
  match inRange 4 (f.at 0), GuardMap.ofByte (f.at 1) with
  | some g, some m => if (groupLines g).all s.free then .ok (g, m) else .error .inUse
  | _, _ => .error .badValue

/-- An accepted GUARD_MAP (R104): the map is written; a NORMAL group whose new map names an ACTIVE input
trips at once. -/
def State.remap (s : State) (g : GroupNo) (m : GuardMap) : State :=
  let s' := s.setGroup g { s.group g with map := m }
  if s.groupNormal g then
    match s.activeMapped m with
    | some i => (s'.tripGroup g).tripNotices g i
    | none => s'
  else s'

/-- The owner's part of GUARD_MAP (R103, R104). -/
def guardMapOwner (_ : StationNo) (f : RequestFrame) (s : State) : OwnerReply :=
  match guardMapChecks f s with
  | .error outcome => refuse s outcome
  | .ok (g, m) =>
    { state := s.remap g m
      outcome := .ok
      payload := [((s.remap g m).group g).state.byte, ((s.remap g m).group g).map.byte] }

/-- GUARD_MAP (R104). -/
def execGuardMap (p : StationNo) (s : State) : Host.Outcome State Fault Refusal :=
  .next (s.take p (rowOf .guardMap) guardMapOwner)

/-- A TRIPPED group becomes NORMAL, with TRIP_CLEARED for every other station that holds a line of it
(R112). -/
def State.rearmGroup (s : State) (p : StationNo) (g : GroupNo) : State :=
  (s.setGroup g { s.group g with state := .normal }).appendNotices
    (fun n => n != p && s.holdsInGroup n g) (.tripCleared g)

/-- The owner's part of REARM (R111, R112). -/
def rearmOwner (p : StationNo) (f : RequestFrame) (s : State) : OwnerReply :=
  match inRange 4 (f.at 0) with
  | none => refuse s .badValue
  | some g =>
    if !s.holdsInGroup p g then refuse s .notHolder
    else if s.groupNormal g then { state := s, outcome := .ok, payload := [GroupState.normal.byte] }
    else if (s.activeMapped (s.group g).map).isSome then refuse s .guardActive
    else
      { state := s.rearmGroup p g, outcome := .ok, payload := [GroupState.normal.byte] }

/-- REARM (R112). -/
def execRearm (p : StationNo) (s : State) : Host.Outcome State Fault Refusal :=
  .next (s.take p (rowOf .rearm) rearmOwner)

/-! ### Activations -/

/-- The groups that an activation of input `i` trips: NORMAL, with a guard map that names it (R105). -/
def State.tripsOn (s : State) (i : GuardInput) : List GroupNo :=
  (List.finRange 4).filter (fun g => s.groupNormal g && mapNames (s.group g).map i)

/-- The groups in the order in which their TRIP notices are appended: a free value, since R105 names none
(assumption 10). -/
def State.tripOrder (s : State) (l : List GroupNo) : List GroupNo :=
  l.insertionSort (fun a b =>
    Config.tripRank s.freeChoices a ≤ Config.tripRank s.freeChoices b)

/-- An activation of guard input `i` (R102, R105): the input becomes ACTIVE and each group it trips goes
through the trip (R106), lines and pairs of all of them first, then their notices (R107). -/
def State.activate (s : State) (i : GuardInput) : State :=
  let groups := s.tripsOn i
  let tripped := groups.foldl State.tripGroup (s.setGuard i true)
  { (s.tripOrder groups).foldl (fun s g => s.tripNotices g i) tripped with
    freeChoices := s.freeChoices + 1 }

end Sys2Proof.Machine
end

