-- ==== Sys2Proof/Machine/LineUnit.lean ====
section
/-! DEFINITION. The line unit's requests (02_output_lines_pairs_and_groups.md): SHAPE, LINE_READ and PAIR. -/

namespace Sys2Proof.Machine

/-! ### SHAPE -/

/-- The settings of a SHAPE (Table 2-5). -/
structure ShapeForm where
  /-- Polarity, or KEEP. -/
  polarity : Setting Polarity
  /-- Safe level, or KEEP. -/
  safe : Setting Bool
  /-- Drive, or KEEP. -/
  drive : Setting Bool
deriving DecidableEq, Repr

/-- The settings of the frame, when the mask names a line and each setting is one of its values (check 1 of
R31). -/
def RequestFrame.shapeForm (f : RequestFrame) : Option ShapeForm :=
  if f.half 0 = 0 then none
  else
    match polaritySetting (f.at 2), flagSetting (f.at 3), flagSetting (f.at 4) with
    | some polarity, some safe, some drive => some ⟨polarity, safe, drive⟩
    | _, _, _ => none

/-- The safe level of line `l` after the change. -/
def State.safeAfter (s : State) (m : LineMask) (x : ShapeForm) (l : LineNo) : Bool :=
  if named m l then x.safe.apply (s.line l).safe else (s.line l).safe

/-- After the change some bound pair with a line in the mask has both safe levels ASSERTED (check 4 of
R31). -/
def State.shapeClash (s : State) (m : LineMask) (x : ShapeForm) : Bool :=
  (List.finRange 8).any (fun k =>
    s.pairBound k && (named m (primary k) || named m (partner k)) &&
      s.safeAfter m x (primary k) && s.safeAfter m x (partner k))

/-- Polarity, safe level and drive of one line take their new values (R32). -/
def State.shapeLine (x : ShapeForm) (s : State) (l : LineNo) : State :=
  s.setLine l { s.line l with
    polarity := x.polarity.apply (s.line l).polarity
    safe := x.safe.apply (s.line l).safe
    driveOn := x.drive.apply (s.line l).driveOn }

/-- The lines of the mask in a TRIPPED group whose safe level the SHAPE changes (R32). -/
def State.resafed (s : State) (m : LineMask) (x : ShapeForm) : List LineNo :=
  (linesOf m).filter (fun l =>
    !s.groupNormal (groupOf l) && x.safe.apply (s.line l).safe != (s.line l).safe)

/-- An accepted SHAPE (R32): the settings of every line of the mask, and then the safe states of the lines
of TRIPPED groups whose safe level changed, by the new safe levels. -/
def State.shape (s : State) (m : LineMask) (x : ShapeForm) : State :=
  (s.resafed m x).foldl State.toSafe ((linesOf m).foldl (State.shapeLine x) s)

/-- Some order of station `p` targets a line of the mask. -/
def State.targeted (s : State) (p : StationNo) (m : LineMask) : Bool := s.slotsOn p m != []

/-- The owner's part of SHAPE: the checks of R31, then R32. -/
def shapeOwner (p : StationNo) (f : RequestFrame) (s : State) : OwnerReply :=
  match f.shapeForm with
  | none => refuse s .badValue
  | some x =>
    if !s.holdsAll p (f.half 0) then refuse s .notHolder
    else if s.targeted p (f.half 0) then refuse s .inUse
    else if s.shapeClash (f.half 0) x then refuse s .badValue
    else { state := s.shape (f.half 0) x, outcome := .ok, payload := [] }

/-- SHAPE (R32). -/
def execShape (p : StationNo) (s : State) : Host.Outcome State Fault Refusal :=
  .next (s.take p (rowOf .shape) shapeOwner)

/-! ### LINE_READ -/

/-- The line entry of line `l` (Table 10-8). -/
def State.lineEntry (s : State) (l : LineNo) : List Byte :=
  [(s.line l).holder.getD 0,
   stationByte (s.holderStation l),
   0#4 ++ BitVec.ofBool (s.line l).driveOn ++ BitVec.ofBool (s.line l).safe ++
     BitVec.ofBool ((s.line l).polarity == .inverted) ++ BitVec.ofBool (s.line l).asserted]

/-- The pair entry of pair `k`: state, gap, end time (R34). -/
def State.pairEntry (s : State) (k : PairNo) : List Byte :=
  [(s.pair k).state.byte, (s.pair k).gap] ++ bytes32 (s.pair k).state.endTime

/-- The pairs 2g and 2g+1 of group `g`. -/
def groupPairs (g : GroupNo) : List PairNo := [⟨2 * g.val, by omega⟩, ⟨2 * g.val + 1, by omega⟩]

/-- The owner's part of LINE_READ (R34). -/
def lineReadOwner (_ : StationNo) (f : RequestFrame) (s : State) : OwnerReply :=
  match inRange 4 (f.at 0) with
  | none => refuse s .badValue
  | some g =>
    { state := s
      outcome := .ok
      payload := (groupLines g).flatMap s.lineEntry ++
        [(s.group g).state.byte, (s.group g).map.byte] ++ (groupPairs g).flatMap s.pairEntry }

/-- LINE_READ (R34). -/
def execLineRead (p : StationNo) (s : State) : Host.Outcome State Fault Refusal :=
  .next (s.take p (rowOf .lineRead) lineReadOwner)

/-! ### PAIR -/

/-- Both lines of pair `k` are held by one claim of station `p` (check 2 of R28). -/
def State.heldAsPair (s : State) (p : StationNo) (k : PairNo) : Bool :=
  (s.line (primary k)).holder == (s.line (partner k)).holder && s.holds p (primary k)

/-- Some WAITING claim names one line of pair `k` without the other (check 2 of R28). -/
def State.waitedHalf (s : State) (k : PairNo) : Bool :=
  s.waiting.any (fun w => named w.claim.lines (primary k) != named w.claim.lines (partner k))

/-- The checks of PAIR in order (R28), for the operation BIND or UNBIND; the pair when all pass. -/
def pairChecks (p : StationNo) (f : RequestFrame) (s : State) : Except ReplyCode PairNo :=
  match inRange 8 (f.at 0) with
  | none => .error .badValue
  | some k =>
    if f.at 1 ≠ 0 ∧ f.at 1 ≠ 1 then .error .badValue
    else if !s.heldAsPair p k then .error .paired
    else if f.at 1 = 1 ∧ s.waitedHalf k then .error .paired
    else if s.targeted p (lineMask (primary k) ||| lineMask (partner k)) then .error .inUse
    else if f.at 1 = 1 ∧ (s.line (primary k)).safe ∧ (s.line (partner k)).safe then .error .badValue
    else .ok k

/-- The reply payload of PAIR: the pair's state and gap after the request (R28). -/
def State.pairPayload (s : State) (k : PairNo) : List Byte := [(s.pair k).state.byte, (s.pair k).gap]

/-- An accepted PAIR BIND (R29): on a bound pair the new gap is stored; on an UNBOUND pair the gap is stored,
the partner deasserted if both lines are ASSERTED, and the state set from the levels. -/
def State.bindPair (s : State) (k : PairNo) (gap : Byte) : State :=
  let s' := s.setPair k { s.pair k with gap := gap }
  if s.pairBound k then s'
  else
    (if (s.line (primary k)).asserted && (s.line (partner k)).asserted then
       s'.setAsserted (partner k) false
     else s').setFromLevels k

/-- An accepted PAIR UNBIND (R29): any gap is cancelled, the lines and the gap value stay. -/
def State.unbindPair (s : State) (k : PairNo) : State := s.setPairState k .unbound

/-- The owner's part of PAIR BIND (R28, R29). -/
def pairBindOwner (p : StationNo) (f : RequestFrame) (s : State) : OwnerReply :=
  match pairChecks p f s with
  | .error outcome => refuse s outcome
  | .ok k =>
    { state := s.bindPair k (f.at 2), outcome := .ok
      payload := (s.bindPair k (f.at 2)).pairPayload k }

/-- PAIR with operation BIND (R29). -/
def execPairBind (p : StationNo) (s : State) : Host.Outcome State Fault Refusal :=
  .next (s.take p (rowOfEither .pair 1 0) pairBindOwner)

/-- The owner's part of PAIR UNBIND (R28, R29). -/
def pairUnbindOwner (p : StationNo) (f : RequestFrame) (s : State) : OwnerReply :=
  match pairChecks p f s with
  | .error outcome => refuse s outcome
  | .ok k =>
    { state := s.unbindPair k, outcome := .ok, payload := (s.unbindPair k).pairPayload k }

/-- PAIR with operation UNBIND (R29). -/
def execPairUnbind (p : StationNo) (s : State) : Host.Outcome State Fault Refusal :=
  .next (s.take p (rowOfEither .pair 1 1) pairUnbindOwner)

end Sys2Proof.Machine
end

