-- ==== Sys2Proof/Machine/ScheduleUnit.lean ====
section
/-! DEFINITION. The schedule's requests (04_the_schedule.md, 05_trains_cadence_revision_and_ending.md): POST,
CANCEL, REVISE, FLUSH and ORDER_READ. -/

namespace Sys2Proof.Machine

/-! ### POST -/

/-- A refused POST carries handle 0, 0 and edge time 0 (R71). -/
def refusePost (s : State) (outcome : ReplyCode) : OwnerReply :=
  refuse s outcome [0, 0, 0, 0, 0, 0]

/-- The checks of the target lines, in order (R66). -/
def targetRefusal (p : StationNo) (s : State) (b : OrderBody) : Option ReplyCode :=
  if !s.holdsAll p b.targets then some .notHolder
  else if (linesOf b.targets).any (fun l => !isPrimary l && s.pairBound (pairOf l)) then some .paired
  else if !s.groupNormal b.group then some .tripped
  else none

/-- The checks of POST from the timebase state to the quota, in order (R64 to R67): the order's form, body
and trigger when all pass. -/
def postChecks (p : StationNo) (f : RequestFrame) (s : State) :
    Except ReplyCode (PostForm × OrderBody × Option CaptureTrigger) :=
  if !s.running then .error .timebaseState
  else
    match f.postForm with
    | none => .error .badFormat
    | some x =>
      match f.postBody x s.horizon, f.postTrigger x with
      | some body, some trigger =>
        match targetRefusal p s body with
        | some outcome => .error outcome
        | none =>
          if (s.station p).quota.toNat ≤ s.orderCount p then .error .quota
          else .ok (x, body, trigger)
      | _, _ => .error .badValue

/-- The order record of an accepted POST (R67, R70). -/
def newOrder (p : StationNo) (f : RequestFrame) (x : PostForm) (body : OrderBody)
    (trigger : Option CaptureTrigger) (state : OrderState) (seq : Time) : Order :=
  { station := p
    body := body
    trigger := trigger
    state := state
    ending := false
    started := false
    late := x.late
    notify := x.notify
    tag := f.half 18
    postSeq := seq }

/-- The reply to an accepted POST: the handle and the edge time (R71). -/
def postPayload (h : Handle) (edge : Time) : List Byte := h.bytes ++ bytes32 edge

/-- The post-sequence counter advances (R61). -/
def State.nextPost (s : State) : State := { s with postSeq := s.postSeq + 1 }

/-- A POST whose due time is in the future (R67): the order becomes SCHEDULED. Where every slot is occupied,
which the quotas rule out (R55), the POST is refused QUOTA (assumption 19). -/
def postFuture (p : StationNo) (f : RequestFrame) (s : State) (x : PostForm) (body : OrderBody)
    (due : Time) : OwnerReply :=
  match s.lowestFree with
  | none => refusePost s .quota
  | some i =>
    { state := s.nextPost.placeOrder i
        (newOrder p f x body none (.scheduled due body.firstPhase) s.postSeq)
      outcome := .ok
      payload := postPayload (s.handle i) due }

/-- A late POST with policy FIRE (R68, R69): after the orders due at T, the order takes a slot and is applied
at once, with T as its due time. Its checks have been made before those firings, and its slot is the lowest free one
after them (assumption 26). -/
def postLateFire (p : StationNo) (f : RequestFrame) (s : State) (x : PostForm) (body : OrderBody) :
    OwnerReply :=
  match s.fireDue.lowestFree with
  | none => refusePost s .quota
  | some i =>
    let o := newOrder p f x body none (.scheduled s.tb.t body.firstPhase) s.postSeq
    { state := (s.fireDue.nextPost.setOrder i o).applyAtOnce .atPost i o
      outcome := .okLate
      payload := postPayload (s.fireDue.handle i) s.tb.t }

/-- An ON_CAPTURE POST (R70): refused NO_SUBSCRIPTION unless the requester is subscribed to the input; else
ARMED at the tail of the input's list. -/
def postArmed (p : StationNo) (f : RequestFrame) (s : State) (x : PostForm) (body : OrderBody)
    (tr : CaptureTrigger) : OwnerReply :=
  if !inSet (s.input tr.input).subscribers p then refusePost s .noSubscription
  else
    match s.lowestFree with
    | none => refusePost s .quota
    | some i =>
      { state := (s.nextPost.setOrder i (newOrder p f x body (some tr) .armed s.postSeq)).setArmed
          tr.input (s.armedOn tr.input ++ [i])
        outcome := .ok
        payload := postPayload (s.handle i) 0 }

/-- The owner's part of POST (R64 to R71). Its checks read the state as the POST finds it: where it is taken between
TICK and FIRING, the orders due at T still stand and count against the quota, a late POST with FIRE too (assumption
26). -/
def postOwner (p : StationNo) (f : RequestFrame) (s : State) : OwnerReply :=
  match postChecks p f s with
  | .error outcome => refusePost s outcome
  | .ok (x, body, some tr) => postArmed p f s x body tr
  | .ok (x, body, none) =>
    match s.classify (f.postDue x s.tb.t), x.late with
    | .future, _ => postFuture p f s x body (f.postDue x s.tb.t)
    | .beyond, _ => refusePost s .beyondHorizon
    | .late, .refuse => refusePost s .late
    | .late, .fire => postLateFire p f s x body

/-- POST (R64). -/
def execPost (p : StationNo) (s : State) : Host.Outcome State Fault Refusal :=
  .next (s.take p (rowOf .post) postOwner)

/-! ### CANCEL -/

/-- The checks of CANCEL, in order (R96): the slot and the live order of the handle. -/
def cancelChecks (p : StationNo) (f : RequestFrame) (s : State) : Except ReplyCode (SlotNo × Order) :=
  match inRange 128 (f.at 0) with
  | none => .error .badValue
  | some i =>
    if f.at 2 ≠ 0 ∧ f.at 2 ≠ 1 then .error .badValue
    else
      match s.liveOrder p i (f.at 1) with
      | none => .error .unknownOrder
      | some o => .ok (i, o)

/-- The reply payload of CANCEL: the disposition (REMOVED 0, ENDING 1) and T (R96). -/
def cancelPayload (ending : Bool) (t : Time) : List Byte := yesNo ending :: bytes32 t

/-- The owner's part of CANCEL NOW (R96, R97). -/
def cancelNowOwner (p : StationNo) (f : RequestFrame) (s : State) : OwnerReply :=
  match cancelChecks p f s with
  | .error outcome => refuse s outcome
  | .ok (i, _) =>
    { state := s.cancelOrder i, outcome := .ok, payload := cancelPayload false s.tb.t }

/-- CANCEL with mode NOW (R97). -/
def execCancelNow (p : StationNo) (s : State) : Host.Outcome State Fault Refusal :=
  .next (s.take p (rowOfEither .cancel 2 1) cancelNowOwner)

/-- AT_END leaves the order standing with ending yes: a SCHEDULED PULSE or TRAIN (R98). -/
def Order.canEnd (o : Order) : Bool :=
  match o.state, o.body with
  | .scheduled _ _, .pulse _ _ => true
  | .scheduled _ _, .train _ _ => true
  | _, _ => false

/-- The owner's part of CANCEL AT_END (R96, R98). -/
def cancelAtEndOwner (p : StationNo) (f : RequestFrame) (s : State) : OwnerReply :=
  match cancelChecks p f s with
  | .error outcome => refuse s outcome
  | .ok (i, o) =>
    if o.canEnd then
      { state := s.setOrder i { o with ending := true }, outcome := .ok
        payload := cancelPayload true s.tb.t }
    else
      { state := s.cancelOrder i, outcome := .ok, payload := cancelPayload false s.tb.t }

/-- CANCEL with mode AT_END (R98). -/
def execCancelAtEnd (p : StationNo) (s : State) : Host.Outcome State Fault Refusal :=
  .next (s.take p (rowOfEither .cancel 2 0) cancelAtEndOwner)

/-! ### REVISE -/

/-- The checks of REVISE, in order (R93): the slot, the order, its line and its train fields. -/
def reviseChecks (p : StationNo) (f : RequestFrame) (s : State) :
    Except ReplyCode (SlotNo × Order × LineNo × TrainRec) :=
  match inRange 128 (f.at 0) with
  | none => .error .badValue
  | some i =>
    match s.liveOrder p i (f.at 1) with
    | none => .error .unknownOrder
    | some o =>
      match o.body with
      | .train l x =>
        if o.ending then .error .ending
        else if 2 ≤ (f.span 5).toNat ∧ (f.span 5).toNat ≤ s.horizon ∧
            (f.span 2).toNat ≤ (f.span 5).toNat then .ok (i, o, l, x)
        else .error .badValue
      | .step _ _ => .error .notPeriodic
      | .pulse _ _ => .error .notPeriodic
      | .pattern _ _ _ => .error .notPeriodic

/-- The owner's part of REVISE (R93, R94): staged on a SCHEDULED train (STAGED 0), written at once into an
ARMED one (APPLIED 1). -/
def reviseOwner (p : StationNo) (f : RequestFrame) (s : State) : OwnerReply :=
  match reviseChecks p f s with
  | .error outcome => refuse s outcome
  | .ok (i, o, l, x) =>
    match o.state with
    | .scheduled _ _ =>
      { state := s.setOrder i
          { o with body := .train l { x with pending := some ⟨f.span 2, f.span 5⟩ } }
        outcome := .ok
        payload := [0] }
    | .armed =>
      { state := s.setOrder i
          { o with body := .train l { x with width := f.span 2, period := f.span 5, pending := none } }
        outcome := .ok
        payload := [1] }

/-- REVISE (R94). -/
def execRevise (p : StationNo) (s : State) : Host.Outcome State Fault Refusal :=
  .next (s.take p (rowOf .revise) reviseOwner)

/-! ### FLUSH -/

/-- The age of the order in slot `i`, 0 where there is none. -/
def State.slotAge (s : State) (i : SlotNo) : Nat :=
  match s.order i with
  | some o => s.age o
  | none => 0

/-- The slots of a station's orders on the mask, oldest order first (R100). -/
def State.flushSlots (s : State) (p : StationNo) (m : LineMask) : List SlotNo :=
  (s.slotsOn p m).insertionSort (fun i j => s.slotAge j ≤ s.slotAge i)

/-- An accepted FLUSH (R100): each order is removed as CANCEL NOW removes it. -/
def State.flushOrders (s : State) (p : StationNo) (m : LineMask) : State :=
  (s.flushSlots p m).foldl State.cancelOrder s

/-- The owner's part of FLUSH (R100). -/
def flushOwner (p : StationNo) (f : RequestFrame) (s : State) : OwnerReply :=
  if f.half 0 = 0 then refuse s .badValue
  else if !s.holdsAll p (f.half 0) then refuse s .notHolder
  else
    { state := s.flushOrders p (f.half 0), outcome := .ok
      payload := [byteOf (s.slotsOn p (f.half 0)).length] }

/-- FLUSH (R100). -/
def execFlush (p : StationNo) (s : State) : Host.Outcome State Fault Refusal :=
  .next (s.take p (rowOf .flush) flushOwner)

/-! ### ORDER_READ -/

/-- Byte 3 of an order entry: the target line, or the group of a PATTERN. -/
def OrderBody.targetByte : OrderBody → Byte
  | .step l _ => byteOf l.val
  | .pulse l _ => byteOf l.val
  | .train l _ => byteOf l.val
  | .pattern g _ _ => byteOf g.val

/-- The mask of a PATTERN, 0 for other kinds. -/
def OrderBody.maskBits : OrderBody → BitVec 4
  | .step _ _ => 0
  | .pulse _ _ => 0
  | .train _ _ => 0
  | .pattern _ m _ => m

/-- The trigger input of an ARMED order, 0 for others (Table 10-9). -/
def Order.inputBits (o : Order) : BitVec 3 :=
  match o.state, o.trigger with
  | .armed, some tr => BitVec.ofNat 3 tr.input.val
  | _, _ => 0

/-- The remaining count, 0 for a TRAIN of unbounded count and for other kinds (R79). -/
def OrderBody.remainingCount : OrderBody → Half
  | .step _ _ => 0
  | .pulse _ _ => 0
  | .train _ x => x.remaining.getD 0
  | .pattern _ _ _ => 0

/-- A revision is pending. -/
def OrderBody.revisionPending : OrderBody → Bool
  | .step _ _ => false
  | .pulse _ _ => false
  | .train _ x => x.pending.isSome
  | .pattern _ _ _ => false

/-- The phase, none for an ARMED order. -/
def Order.phase (o : Order) : Phase :=
  match o.state with
  | .armed => .absent
  | .scheduled _ ph => ph

/-- The state bit: 1 SCHEDULED. -/
def Order.isScheduled (o : Order) : Bool :=
  match o.state with
  | .armed => false
  | .scheduled _ _ => true

/-- The order entry of slot `i` holding `o` (Table 10-9). -/
def State.orderEntry (s : State) (i : SlotNo) (o : Order) : List Byte :=
  (s.handle i).bytes ++ [o.body.kind.byte, o.body.targetByte,
    0#1 ++ o.inputBits ++ o.body.maskBits] ++ bytes32 o.nextEdge ++
  bytes16 o.body.remainingCount ++
  [BitVec.ofBool o.isScheduled ++ 0#1 ++ o.phase.bits ++ 0#2 ++ BitVec.ofBool o.ending ++
    BitVec.ofBool o.body.revisionPending] ++ bytes16 o.tag

/-- The entries of up to 3 orders of station `n`, in the lowest-numbered slots at or above `start` (R79). -/
def State.orderEntries (s : State) (n : StationNo) (start : SlotNo) : List Byte :=
  (((s.slotsWith (fun o => o.station == n)).filter (fun i => decide (start.val ≤ i.val))).take 3).flatMap
    (fun i =>
      match s.order i with
      | some o => s.orderEntry i o
      | none => [])

/-- The owner's part of ORDER_READ (R79). -/
def orderReadOwner (p : StationNo) (f : RequestFrame) (s : State) : OwnerReply :=
  match inRange 128 (f.at 0) with
  | none => refuse s .badValue
  | some start =>
    { state := s
      outcome := .ok
      payload := [(s.station p).quota, byteOf (s.orderCount p)] ++ s.orderEntries p start }

/-- ORDER_READ (R79). -/
def execOrderRead (p : StationNo) (s : State) : Host.Outcome State Fault Refusal :=
  .next (s.take p (rowOf .orderRead) orderReadOwner)

end Sys2Proof.Machine
end

