-- ==== Sys2Proof/Machine/Session.lean ====
section
/-! DEFINITION. The session table's requests BIND, UNBIND and KEEPALIVE and the port controller's PORT_STATUS
(08_stations_sessions_and_leases.md, R162), and the expiry of a lease (R142). -/

namespace Sys2Proof.Machine

/-- The session and the port that an accepted BIND leaves (R138). -/
def State.bindStation (s : State) (p : StationNo) (quota : Byte) (lease : Half) : State :=
  let s' := s.setStation p
    { session := .bound
      number := some (stepForward (s.station p).counter)
      counter := stepForward (s.station p).counter
      leasePeriod := some lease
      leaseTimer := some lease
      quota := quota }
  s'.setPort p { s'.port p with noticeSeq := 0, lastRequest := none, replyCache := none }

/-- The quota granted: the smaller of the quota asked for and the unreserved count (R59). -/
def State.quotaGrant (s : State) (asked : Byte) : Byte := byteOf (min asked.toNat s.unreserved)

/-- The owner's part of BIND: the checks of R137, then R138. -/
def bindOwner (p : StationNo) (f : RequestFrame) (s : State) : OwnerReply :=
  if f.session ≠ 0 then refuse s .badValue
  else if 128 < (f.at 0).toNat ∨ f.half 1 = 0 then refuse s .badValue
  else
    { state := s.bindStation p (s.quotaGrant (f.at 0)) (f.half 1)
      outcome := .ok
      payload := [stepForward (s.station p).counter, s.quotaGrant (f.at 0)] ++ bytes16 (f.half 1) ++
        [128, 64, 16, 8, s.tb.state.byte] }

/-- BIND (R138). -/
def execBind (p : StationNo) (s : State) : Host.Outcome State Fault Refusal :=
  .next (s.take p (rowOf .bind) bindOwner)

/-- The owner's part of UNBIND (R141): the station is torn down and becomes UNBOUND; the reply counts the
orders removed, the held claims revoked and the waiting claims removed. -/
def unbindOwner (p : StationNo) (_ : RequestFrame) (s : State) : OwnerReply :=
  { state := s.teardown p false
    outcome := .ok
    payload := [byteOf (s.orderCount p),
      byteOf (s.held.filter (fun c => c.station == p)).length,
      byteOf (s.waiting.filter (fun w => w.claim.station == p)).length]
    endsSession := true }

/-- UNBIND (R141). -/
def execUnbind (p : StationNo) (s : State) : Host.Outcome State Fault Refusal :=
  .next (s.take p (rowOf .unbind) unbindOwner)

/-- The owner's part of KEEPALIVE (R140): the session number and the lease period in force. -/
def keepaliveOwner (p : StationNo) (_ : RequestFrame) (s : State) : OwnerReply :=
  { state := s
    outcome := .ok
    payload := s.sessionByte p :: bytes16 ((s.station p).leasePeriod.getD 0) }

/-- KEEPALIVE (R140). -/
def execKeepalive (p : StationNo) (s : State) : Host.Outcome State Fault Refusal :=
  .next (s.take p (rowOf .keepalive) keepaliveOwner)

/-- The six discard counters in the order FRAMING, SHORT, LONG, CHECK, KIND, FULL (R162). -/
def Discards.bytes (d : Discards) : List Byte :=
  bytes16 d.framing ++ bytes16 d.short ++ bytes16 d.long ++ bytes16 d.check ++ bytes16 d.kind ++
    bytes16 d.full

/-- The owner's part of PORT_STATUS (R162): the counters as they stand and the session state; with clear YES
the counters are then 0. -/
def portStatusOwner (p : StationNo) (f : RequestFrame) (s : State) : OwnerReply :=
  if f.at 0 = 0 ∨ f.at 0 = 1 then
    { state := if f.at 0 = 1 then s.setPort p { s.port p with discards := Discards.zero } else s
      outcome := .ok
      payload := (s.port p).discards.bytes ++ [(s.station p).session.byte] }
  else refuse s .badValue

/-- PORT_STATUS (R162). -/
def execPortStatus (p : StationNo) (s : State) : Host.Outcome State Fault Refusal :=
  .next (s.take p (rowOf .portStatus) portStatusOwner)

/-- A request whose code names no request has no owner: the common checks refuse it (R168). -/
def unknownOwner (_ : StationNo) (_ : RequestFrame) (s : State) : OwnerReply :=
  refuse s .unknownRequest

/-- UNKNOWN_REQUEST (R168). -/
def execUnknownRequest (p : StationNo) (s : State) : Host.Outcome State Fault Refusal :=
  .next (s.take p (fun f => f.request == none) unknownOwner)

/-- LEASE_EXPIRY (R142). A request that meets the expiry (R143) is taken first where it waits at the LEASE_BOUNDARY,
which takes it and finds the lease restarted; one that comes after the boundary is removed by the expiry
(assumption 9). -/
def execLeaseExpiry (n : StationNo) (s : State) : Host.Outcome State Fault Refusal :=
  working s (s.lapse n)

end Sys2Proof.Machine
end

