-- ==== Sys2Proof/Machine/TimebaseUnit.lean ====
section
/-! DEFINITION. The timebase and the lease clock (01_the_timebase.md): TIME_READ, TIME_START and TIME_STOP, and
the work of a tick, of an edge of Mark, of the arm timer's expiry and of a lease boundary. -/

namespace Sys2Proof.Machine

/-- The owner's part of TIME_READ (R13). -/
def timeReadOwner (_ : StationNo) (_ : RequestFrame) (s : State) : OwnerReply :=
  { state := s
    outcome := .ok
    payload := s.tb.state.byte :: bytes32 s.tb.t ++
      [byteOf s.tb.d, byteOf s.tb.h, stationByte s.tb.arming] ++ bytes16 (s.tb.armTimer.getD 0) }

/-- TIME_READ (R13). -/
def execTimeRead (p : StationNo) (s : State) : Host.Outcome State Fault Refusal :=
  .next (s.take p (rowOf .timeRead) timeReadOwner)

/-- The timebase's checks of TIME_START, in order (R5): HALTED, then the parameters in range. -/
def timeStartRefusal (s : State) (f : RequestFrame) : Option ReplyCode :=
  if s.tb.state ≠ .halted then some .timebaseState
  else if (f.at 0 = 0 ∨ f.at 0 = 1) ∧ (f.at 1).toNat ≤ 10 ∧ 16 ≤ (f.at 2).toNat ∧
      (f.at 2).toNat ≤ 30 ∧ (f.at 3 = 0 ∨ f.at 3 = 1) then none
  else some .badValue

/-- The timebase after an accepted TIME_START, its state apart: d and h are set, and T is loaded if a start
value is present (R4, R5). -/
def Timebase.loaded (b : Timebase) (f : RequestFrame) : Timebase :=
  { b with
    t := if f.at 3 = 1 then f.time 4 else b.t
    d := (f.at 1).toNat
    h := (f.at 2).toNat }

/-- TIME_STARTED, with T at the start, d and h, for every BOUND station that `who` selects (R14). -/
def State.announceStart (s : State) (who : StationNo → Bool) : State :=
  s.appendNotices (fun n => who n && s.isBound n) (.timeStarted s.tb.t s.tb.d s.tb.h)

/-- The owner's part of TIME_START in mode IMMEDIATE (R5, R6). -/
def timeStartImmediateOwner (p : StationNo) (f : RequestFrame) (s : State) : OwnerReply :=
  match timeStartRefusal s f with
  | some outcome => refuse s outcome
  | none =>
    let s' := { s with tb := { s.tb.loaded f with state := .running } }
    { state := s'.announceStart (fun n => n != p)
      outcome := .ok
      payload := TimebaseState.running.byte :: bytes32 s'.tb.t }

/-- TIME_START in mode IMMEDIATE (R6). -/
def execTimeStartImmediate (p : StationNo) (s : State) : Host.Outcome State Fault Refusal :=
  .next (s.take p (rowOfEither .timeStart 0 1) timeStartImmediateOwner)

/-- The owner's part of TIME_START in mode ON_MARK (R5, R7). -/
def timeStartOnMarkOwner (p : StationNo) (f : RequestFrame) (s : State) : OwnerReply :=
  match timeStartRefusal s f with
  | some outcome => refuse s outcome
  | none =>
    let s' := { s with tb := { s.tb.loaded f with
      state := .armed
      arming := some p
      armTimer := if f.half 8 = 0 then none else some (f.half 8) } }
    { state := s'
      outcome := .ok
      payload := TimebaseState.armed.byte :: bytes32 s'.tb.t }

/-- TIME_START in mode ON_MARK (R7). -/
def execTimeStartOnMark (p : StationNo) (s : State) : Host.Outcome State Fault Refusal :=
  .next (s.take p (rowOfEither .timeStart 0 0) timeStartOnMarkOwner)

/-- Some pair unit is in a gap. -/
def State.anyGap (s : State) : Bool := (List.finRange 8).any (fun k => (s.pair k).state.inGap)

/-- The timebase halts (R12): from RUNNING sampling ends (R118); from ARMED the arm timer stops and the
arming station becomes none; in HALTED nothing changes. -/
def State.halt (s : State) : State :=
  match s.tb.state with
  | .running => { s with tb := { s.tb with state := .halted } }.stopSampling
  | .armed => { s with tb := { s.tb with state := .halted, armTimer := none, arming := none } }
  | .halted => s

/-- The owner's part of TIME_STOP (R12). -/
def timeStopOwner (_ : StationNo) (_ : RequestFrame) (s : State) : OwnerReply :=
  if s.anyOrder || s.anyGap then refuse s .inUse
  else
    { state := s.halt
      outcome := .ok
      payload := s.tb.state.byte :: bytes32 s.tb.t }

/-- TIME_STOP (R12). -/
def execTimeStop (p : StationNo) (s : State) : Host.Outcome State Fault Refusal :=
  .next (s.take p (rowOf .timeStop) timeStopOwner)

/-- The filter of input `c`, if it closes at T and its close has not been commanded, closes at the level
that stands. -/
def State.closeFilter (s : State) (c : InputNo) : State :=
  match s.closingLevel c with
  | some level => s.sample c level
  | none => s

/-- What is due at T and has not been commanded is done: firings, gap completions, filter closes
(assumption 7). It changes nothing when all of it has been. -/
def State.settle (s : State) : State :=
  (List.finRange 8).foldl State.closeFilter s.fireDue.completeGaps

/-- T takes its next value (R1). -/
def State.advance (s : State) : State := { s with tb := { s.tb with t := s.tb.t + 1 } }

/-- A rising edge of Mark starts an ARMED timebase: RUNNING, the arm timer stopped, the arming station none,
and TIME_STARTED for every BOUND station (R8). -/
def State.markEdge (s : State) : State :=
  if s.tb.state = .armed then
    { s with tb := { s.tb with state := .running, armTimer := none, arming := none } }.announceStart
      (fun _ => true)
  else s

/-- The arm timer of an ARMED timebase is exhausted (R9): HALTED, the timer stopped, MARK_TIMEOUT for the
arming station if there is one, and then none. -/
def State.armExpiry (s : State) : State :=
  if s.tb.state = .armed ∧ s.tb.armTimer = some 0 then
    let s' := { s with tb := { s.tb with state := .halted, armTimer := none, arming := none } }
    match s.tb.arming with
    | some n => s'.appendNotice n (.markTimeout s.tb.t s.tb.d s.tb.h)
    | none => s'
  else s

/-- A lease unit ends: every running lease timer and every wait deadline is decremented by one (R15). -/
def State.leaseUnitEnds (s : State) : State :=
  { s with
    leaseClock := s.leaseClock + 1
    stations := s.stations.map (fun r => { r with leaseTimer := r.leaseTimer.map countDown })
    waiting := s.waiting.map (fun w => { w with deadline := countDown w.deadline }) }

/-- A lease unit ends for the arm timer, if it runs (R15). -/
def State.armUnitEnds (s : State) : State :=
  { s with tb := { s.tb with armTimer := s.tb.armTimer.map countDown } }

end Sys2Proof.Machine
end

