-- ==== Sys2Proof/Machine/Takings.lean ====
section
/-! DEFINITION. What comes before a command: the first instant of R155 (which block owns a request, the taking of
every request whose instant has come), the expiries that a lease boundary owes (R9, R45, R142), a lease
boundary and the requests that meet it (R15, R143), and the shape of the
commands that a request comes before. -/

namespace Sys2Proof.Machine

/-- The block that owns a request, whatever row of the table carries it (R155, step 3). The two modes of
TIME_START, the two operations of PAIR and the two modes of CANCEL are rows of their own; a byte that names
neither is refused with one outcome by either (assumption 5). -/
def requestOwner (p : StationNo) (f : RequestFrame) : State → OwnerReply :=
  match f.request with
  | none => unknownOwner p f
  | some .bind => bindOwner p f
  | some .unbind => unbindOwner p f
  | some .keepalive => keepaliveOwner p f
  | some .portStatus => portStatusOwner p f
  | some .timeRead => timeReadOwner p f
  | some .timeStart => if f.at 0 = 1 then timeStartOnMarkOwner p f else timeStartImmediateOwner p f
  | some .timeStop => timeStopOwner p f
  | some .claim => claimOwner p f
  | some .release => releaseOwner p f
  | some .shape => shapeOwner p f
  | some .lineRead => lineReadOwner p f
  | some .pair => if f.at 1 = 0 then pairUnbindOwner p f else pairBindOwner p f
  | some .post => postOwner p f
  | some .cancel => if f.at 2 = 1 then cancelAtEndOwner p f else cancelNowOwner p f
  | some .revise => reviseOwner p f
  | some .flush => flushOwner p f
  | some .orderRead => orderReadOwner p f
  | some .guardMap => guardMapOwner p f
  | some .rearm => rearmOwner p f
  | some .subscribe => subscribeOwner p f
  | some .unsubscribe => unsubscribeOwner p f
  | some .readCaptures => readCapturesOwner p f

/-- The request at the head of port `p`'s queue is taken, whichever it is, where it can be (R155). -/
def State.takeHead (s : State) (p : StationNo) : State := s.take p (fun _ => true) requestOwner

/-- Every request whose first instant has come is taken (R155), ports ascending (assumption 4). Twice on each
port: an idle transmitter begins the first reply at once, so that the slot is empty again. -/
def State.takeDue (s : State) : State :=
  (List.finRange 4).foldl (fun s p => (s.takeHead p).takeHead p) s

/-- The request at the head of port `p`'s queue is served, whichever it is: it meets a lease boundary of its instant
and is taken first (R143). -/
def State.serveHead (s : State) (p : StationNo) : State := s.serve p (fun _ => true) requestOwner

/-- Every request that meets a lease boundary of its instant is served, ports ascending and twice on each as in
`State.takeDue`. -/
def State.serveDue (s : State) : State :=
  (List.finRange 4).foldl (fun s p => (s.serveHead p).serveHead p) s

/-- Every expiry that a lease boundary has brought about and that has not been made is made: the arm timer's (R9), the
waiting claims' (R45) and the leases' (R142), stations ascending. The order is the model's where the sender has
commanded none of them (assumption 9). -/
def State.expireOwed (s : State) : State :=
  (List.finRange 4).foldl State.lapse s.armExpiry.expireWaits

/-- A lease boundary (R15), with the requests of its instant (R143). No expiry of an earlier boundary is passed over:
each is made first (assumption 9). A timer that a request of this instant sets is not decremented by the boundary
(R15: only boundaries after the instant it is set), so it is set after the others have been; and a lease that such a
request restarts, whatever its period, does not expire here. The arm timer that was running is decremented when the
requests have been served, so that a TIME_READ among them reports it as it stood before the boundary (R13). -/
def State.meetBoundary (s : State) : State :=
  let s := s.expireOwed
  let t := s.leaseUnitEnds.serveDue
  if s.tb.armTimer.isSome then t.armUnitEnds else t

/-- A command that a request whose first instant has come does not wait for (R155): that request is taken first,
and the command acts on the state which the taking leaves. -/
def acting (s : State) (f : State → State) : Host.Outcome State Fault Refusal :=
  working s (f s.takeDue)

end Sys2Proof.Machine
end

