-- ==== Sys2Proof/Machine/Events.lean ====
section
/-! DEFINITION. The events of the part that no station requests: ticks and edges of Mark, timers, firings, gap
completions, guard samples and capture samples. A request whose first instant has come is taken before each of
them (R155). -/

namespace Sys2Proof.Machine

/-! ### The timebase and the lease clock -/

/-- The part's work at a tick (R1): while RUNNING, T advances by 1; no work due at the old T is left behind. In
HALTED and ARMED T is held. -/
def State.tick (s : State) : State := if s.running then s.settle.advance else s

/-- TICK (R1). The expiries of a lease boundary that has passed are made first (R142, assumption 9). -/
def execTick (s : State) : Host.Outcome State Fault Refusal := acting s (fun s => s.expireOwed.tick)

/-- MARK_RISING_EDGE (R8). -/
def execMarkRisingEdge (s : State) : Host.Outcome State Fault Refusal := acting s State.markEdge

/-- ARM_TIMER_EXPIRY (R9). -/
def execArmTimerExpiry (s : State) : Host.Outcome State Fault Refusal := acting s State.armExpiry

/-- LEASE_BOUNDARY (R15). A request that waits here to be taken is taken at the boundary's own instant, first (R143,
assumption 9). -/
def execLeaseBoundary (s : State) : Host.Outcome State Fault Refusal := working s s.meetBoundary

/-- WAIT_EXPIRY (R45). -/
def execWaitExpiry (s : State) : Host.Outcome State Fault Refusal := acting s State.expireWaits

/-! ### Orders and gaps -/

/-- FIRING (R73): the orders due at the T that stands are fired, while the timebase is RUNNING (R2). -/
def execFiring (s : State) : Host.Outcome State Fault Refusal :=
  acting s (fun s => if s.running then s.fireDue else s)

/-- GAP_COMPLETION (R25): the gap of pair `k` completes if it ends at the T that stands, while the timebase
is RUNNING (R2). -/
def execGapCompletion (k : PairNo) (s : State) : Host.Outcome State Fault Refusal :=
  acting s (fun s => if s.running then s.completeGap k else s)

/-! ### Guards -/

/-- GUARD_ACTIVATION (R105): an input sampled low after a sample high; for an input that is ACTIVE already no
event occurs (assumption 1). -/
def execGuardActivation (i : GuardInput) (s : State) : Host.Outcome State Fault Refusal :=
  acting s (fun s => if s.guardActive i then s else s.activate i)

/-- GUARD_DEACTIVATION (R102): the input becomes INACTIVE, and nothing else changes. -/
def execGuardDeactivation (i : GuardInput) (s : State) : Host.Outcome State Fault Refusal :=
  acting s (fun s => s.setGuard i false)

/-! ### Captures -/

/-- CAPTURE_EDGE (R115, R116): a sample of input `c` shows `level`; the row carries any sample (assumption 18). -/
def execCaptureEdge (c : InputNo) (level : Level) (s : State) : Host.Outcome State Fault Refusal :=
  acting s (fun s => s.sample c level)

/-- FILTER_CLOSE (R117): the sample of input `c` at which its filter closes shows `level`; where no filter of
the input closes at the T that stands, nothing changes. -/
def execFilterClose (c : InputNo) (level : Level) (s : State) : Host.Outcome State Fault Refusal :=
  acting s (fun s => if (s.closingLevel c).isSome then s.sample c level else s)

end Sys2Proof.Machine
end

