-- ==== Sys2Proof/Machine/PortUnit.lean ====
section
/-! DEFINITION. The port controllers (09_the_station_port.md): the receiver's characters (R148 to R150), breaks
(R152, R153, R144), and the transmitter's end of a frame (R158). A request whose first instant has come is
taken before each of these but a break, which may meet it at that instant (R155, R163). -/

namespace Sys2Proof.Machine

/-! ### The receiver -/

/-- The payload length that the frame buffer's length byte gives; byte 3 of a request frame (R165). -/
def PortRec.frameLength (p : PortRec) : Nat := (p.buffer.getD 3 0).toNat

/-- The receiver is assembling a frame. -/
def Receiver.assembling : Receiver → Bool
  | .hunt => false
  | .header => true
  | .body => true
  | .check => true
  | .inBreak => false

/-- The character is a good one with marker 0 and the last of the frame's two check bytes (R148). -/
def PortRec.completes (p : PortRec) (marker stop : Bool) : Bool :=
  stop && !marker && p.receiver == .check && p.buffer.length + 1 == p.frameLength + 6

/-- The byte is the third of HEADER's, the length byte (R148). -/
def PortRec.takesLength (p : PortRec) : Bool := p.receiver == .header && p.buffer.length == 3

/-- The character ends the frame in assembly early (R148): stop bit 0, marker 1, or a length above 48. -/
def PortRec.endsEarly (p : PortRec) (data : Byte) (marker stop : Bool) : Bool :=
  p.receiver.assembling &&
    (!stop || marker || (p.takesLength && decide (Config.maxPayload < data.toNat)))

/-- The receiver enters HUNT with an empty frame buffer. -/
def PortRec.toHunt (p : PortRec) : PortRec := { p with receiver := .hunt, buffer := [] }

/-- A frame begins with byte 0 (R148). -/
def PortRec.beginFrame (p : PortRec) (data : Byte) : PortRec :=
  { p with receiver := .header, buffer := [data] }

/-- The receiver state after a byte that neither completes nor ends the frame (R148). -/
def PortRec.receiverAfter (p : PortRec) (data : Byte) : Receiver :=
  match p.receiver with
  | .hunt => .hunt
  | .inBreak => .inBreak
  | .check => .check
  | .header => if p.buffer.length = 3 then (if data = 0 then .check else .body) else .header
  | .body => if p.buffer.length + 1 = p.frameLength + 4 then .check else .body

/-- A character that neither completes nor ends a frame (R148): in HUNT a good one with marker 1 begins a
frame and any other is ignored; in HEADER, BODY and CHECK it adds its byte; in BREAK no character is
accepted (R152). -/
def PortRec.character (p : PortRec) (data : Byte) (marker stop : Bool) : PortRec :=
  match p.receiver with
  | .hunt => if stop && marker then p.beginFrame data else p
  | .inBreak => p
  | .header => { p with receiver := p.receiverAfter data, buffer := p.buffer ++ [data] }
  | .body => { p with receiver := p.receiverAfter data, buffer := p.buffer ++ [data] }
  | .check => { p with receiver := p.receiverAfter data, buffer := p.buffer ++ [data] }

/-- CHARACTER_RECEIVED (R148): a character that completes or ends a frame is another row's event. -/
def execCharacterReceived (p : StationNo) (data : Byte) (marker stop : Bool) (s : State) :
    Host.Outcome State Fault Refusal :=
  acting s (fun s =>
    if (s.port p).completes marker stop || (s.port p).endsEarly data marker stop then s
    else s.setPort p ((s.port p).character data marker stop))

/-- A frame that ends early (R148, R150): FRAMING for stop bit 0, whatever the marker; SHORT for marker 1,
and the same character begins a new frame; LONG for a length above 48. -/
def PortRec.endEarly (p : PortRec) (data : Byte) (marker stop : Bool) : PortRec :=
  if !stop then
    { p.toHunt with discards := { p.discards with framing := satInc p.discards.framing } }
  else if marker then
    { p with discards := { p.discards with short := satInc p.discards.short } }.beginFrame data
  else
    { p.toHunt with discards := { p.discards with long := satInc p.discards.long } }

/-- FRAME_END_EARLY (R148): an event only where a frame is in assembly and the character ends it. -/
def execFrameEndEarly (p : StationNo) (data : Byte) (marker stop : Bool) (s : State) :
    Host.Outcome State Fault Refusal :=
  acting s (fun s =>
    if (s.port p).endsEarly data marker stop then
      s.setPort p ((s.port p).endEarly data marker stop)
    else s)

/-- The bytes a frame's check value covers: byte 0 to the last payload byte (R151). -/
def PortRec.checkedBytes (p : PortRec) : List Byte := p.buffer.take (p.frameLength + 4)

/-- The two check bytes as one number, the first most significant; the second is `data` (R149). -/
def PortRec.checkBytes (p : PortRec) (data : Byte) : BitVec 16 :=
  p.buffer.getD (p.frameLength + 4) 0 ++ data

/-- The request frame in the buffer (R165). -/
def PortRec.requestFrame (p : PortRec) : RequestFrame :=
  { sequence := (p.buffer.getD 0 0).extractLsb' 0 6
    session := p.buffer.getD 1 0
    code := p.buffer.getD 2 0
    payload := (p.buffer.drop 4).take p.frameLength }

/-- The decision on a complete frame, in order (R149): CHECK, KIND, FULL, or the tail of the request
queue. -/
def PortRec.decideFrame (p : PortRec) (data : Byte) : PortRec :=
  if checkValue p.checkedBytes ≠ p.checkBytes data then
    { p.toHunt with discards := { p.discards with check := satInc p.discards.check } }
  else if (p.buffer.getD 0 0).extractLsb' 6 2 ≠ 0 then
    { p.toHunt with discards := { p.discards with kind := satInc p.discards.kind } }
  else if Config.requestQueue ≤ p.requests.length then
    { p.toHunt with discards := { p.discards with full := satInc p.discards.full } }
  else { p.toHunt with requests := p.requests ++ [p.requestFrame] }

/-- FRAME_COMPLETE (R149): the good character with marker 0 that carries the second check byte. -/
def execFrameComplete (p : StationNo) (data : Byte) (s : State) : Host.Outcome State Fault Refusal :=
  acting s (fun s =>
    if (s.port p).completes false true then s.setPort p ((s.port p).decideFrame data) else s)

/-! ### Breaks -/

/-- A frame being sent is cut: its transmitter finishes the character it has begun (R153). -/
def Transmitter.cutShort : Transmitter → Transmitter
  | .idle => .idle
  | .sending f k => .cut f k
  | .cut f k => .cut f k

/-- The port at a break (R153). The receiver enters BREAK with no frame; the discard counters and the notice
sequence stay. -/
def PortRec.emptied (p : PortRec) : PortRec :=
  { p with
    receiver := .inBreak
    buffer := []
    requests := []
    replySlot := none
    lastRequest := none
    replyCache := none
    notices := []
    noticesLost := 0
    transmitter := p.transmitter.cutShort }

/-- The session table's act at a break, with the port's part of a teardown (R144, R153). -/
def State.breakSession (s : State) (n : StationNo) : State :=
  match (s.station n).session with
  | .bound => (s.teardown n false).portTeardown n false
  | .lapsed => s.endSession n false
  | .unbound => s

/-- BREAK (R153): one event at detection, however long the line then stays low (R152). A request that can be
taken at the instant of the break may be taken before it or not at all (R143, R163): its row, commanded first,
takes it, and a break commanded first removes it (assumption 4). -/
def execLineBreak (p : StationNo) (s : State) : Host.Outcome State Fault Refusal :=
  working s
    (if (s.port p).receiver = .inBreak then s
     else (s.breakSession p).setPort p ((s.breakSession p).port p).emptied)

/-- BREAK_END (R152): the receiver leaves BREAK and enters HUNT. -/
def execBreakEnd (p : StationNo) (s : State) : Host.Outcome State Fault Refusal :=
  acting s (fun s =>
    if (s.port p).receiver = .inBreak then s.setPort p { s.port p with receiver := .hunt } else s)

/-! ### The transmitter -/

/-- The transmitter becomes idle and chooses (R158). -/
def State.endTransmission (s : State) (n : StationNo) : State :=
  (s.setPort n { s.port n with transmitter := .idle }).transmitChoice n

/-- TRANSMIT_END (R158): the end of a frame's last character, or of the character at which a break cut it. -/
def execTransmitEnd (p : StationNo) (s : State) : Host.Outcome State Fault Refusal :=
  acting s (fun s => if (s.port p).transmitter = .idle then s else s.endTransmission p)

/-- One character time on a transmit line: the character reached moves on, up to the frame's last. -/
def Transmitter.characterTime : Transmitter → Transmitter
  | .idle => .idle
  | .sending f k => .sending f (if k + 1 < f.length then k + 1 else k)
  | .cut f k => .cut f k

/-- The character on a transmit line, or none while the line is idle at 1 (R147). A character that a break has
found begun is finished (R153). -/
def Transmitter.character : Transmitter → Option Character
  | .idle => none
  | .sending f k => (sentCharacters f)[k]?
  | .cut f k => (sentCharacters f)[k]?

/-- The character on TXn, or none while the line is idle at 1 (R147). -/
def State.sentCharacter (s : State) (n : StationNo) : Option Character :=
  (s.port n).transmitter.character

/-- One character time passes on every transmit line (assumption 11). -/
def State.characterTime (s : State) : State :=
  { s with ports := s.ports.map (fun p => { p with transmitter := p.transmitter.characterTime }) }

end Sys2Proof.Machine
end

