-- ==== Sys2Proof/Machine/Reset.lean ====
section
/-! DEFINITION. Power-on reset (R177, R178): RESET_BEGIN and POWER_ON_RESET_END. -/

namespace Sys2Proof.Machine

/-- The part while power-on reset lasts: everything held is discarded, every L pin is high-impedance and
every transmitter idle (R177). The records stand at their power-on values, with the port rate divisor of
the last straps, until the reset ends (assumption 17). The queue of commands is the sender's. -/
def State.inPowerOnReset (s : State) : State :=
  { State.powerOn .low .low .high .high with
    pending := s.pending
    freeChoices := s.freeChoices
    inReset := true
    rateDivisor := s.rateDivisor }

/-- RESET_BEGIN (R177). -/
def execResetBegin (s : State) : Host.Outcome State Fault Refusal := .next s.inPowerOnReset

/-- POWER_ON_RESET_END (R177, R178): every block takes its power-on values, with the straps and the first
guard samples as given. An event only while reset lasts. -/
def execPowerOnResetEnd (rate1 rate0 ga gb : Level) (s : State) :
    Host.Outcome State Fault Refusal :=
  .next
    (if s.inReset then
       { State.powerOn rate1 rate0 ga gb with pending := s.pending, freeChoices := s.freeChoices }
     else s)

end Sys2Proof.Machine
end

