-- ==== Sys2Proof/Machine/Dispatch.lean ====
section
/-! DEFINITION. The meaning of each command: one arm for each row of spec/opcode_table.json. -/

namespace Sys2Proof.Machine

-- one direct call of a meaning for each constructor
def exec (i : Instr) (s : State) : Host.Outcome State Fault Refusal :=
  match i with
  | .bind p => Sys2Proof.Machine.execBind p s
  | .unbind p => Sys2Proof.Machine.execUnbind p s
  | .keepalive p => Sys2Proof.Machine.execKeepalive p s
  | .portStatus p => Sys2Proof.Machine.execPortStatus p s
  | .timeRead p => Sys2Proof.Machine.execTimeRead p s
  | .timeStartImmediate p => Sys2Proof.Machine.execTimeStartImmediate p s
  | .timeStartOnMark p => Sys2Proof.Machine.execTimeStartOnMark p s
  | .timeStop p => Sys2Proof.Machine.execTimeStop p s
  | .claim p => Sys2Proof.Machine.execClaim p s
  | .release p => Sys2Proof.Machine.execRelease p s
  | .shape p => Sys2Proof.Machine.execShape p s
  | .lineRead p => Sys2Proof.Machine.execLineRead p s
  | .pairBind p => Sys2Proof.Machine.execPairBind p s
  | .pairUnbind p => Sys2Proof.Machine.execPairUnbind p s
  | .post p => Sys2Proof.Machine.execPost p s
  | .cancelNow p => Sys2Proof.Machine.execCancelNow p s
  | .cancelAtEnd p => Sys2Proof.Machine.execCancelAtEnd p s
  | .revise p => Sys2Proof.Machine.execRevise p s
  | .flush p => Sys2Proof.Machine.execFlush p s
  | .orderRead p => Sys2Proof.Machine.execOrderRead p s
  | .guardMap p => Sys2Proof.Machine.execGuardMap p s
  | .rearm p => Sys2Proof.Machine.execRearm p s
  | .subscribe p => Sys2Proof.Machine.execSubscribe p s
  | .unsubscribe p => Sys2Proof.Machine.execUnsubscribe p s
  | .readCaptures p => Sys2Proof.Machine.execReadCaptures p s
  | .unknownRequest p => Sys2Proof.Machine.execUnknownRequest p s
  | .frameComplete p data => Sys2Proof.Machine.execFrameComplete p data s
  | .frameEndEarly p data marker stop => Sys2Proof.Machine.execFrameEndEarly p data marker stop s
  | .lineBreak p => Sys2Proof.Machine.execLineBreak p s
  | .breakEnd p => Sys2Proof.Machine.execBreakEnd p s
  | .transmitEnd p => Sys2Proof.Machine.execTransmitEnd p s
  | .tick => Sys2Proof.Machine.execTick s
  | .firing => Sys2Proof.Machine.execFiring s
  | .gapCompletion k => Sys2Proof.Machine.execGapCompletion k s
  | .markRisingEdge => Sys2Proof.Machine.execMarkRisingEdge s
  | .armTimerExpiry => Sys2Proof.Machine.execArmTimerExpiry s
  | .leaseBoundary => Sys2Proof.Machine.execLeaseBoundary s
  | .leaseExpiry n => Sys2Proof.Machine.execLeaseExpiry n s
  | .waitExpiry => Sys2Proof.Machine.execWaitExpiry s
  | .guardActivation g => Sys2Proof.Machine.execGuardActivation g s
  | .guardDeactivation g => Sys2Proof.Machine.execGuardDeactivation g s
  | .captureEdge c level => Sys2Proof.Machine.execCaptureEdge c level s
  | .filterClose c level => Sys2Proof.Machine.execFilterClose c level s
  | .resetBegin => Sys2Proof.Machine.execResetBegin s
  | .powerOnResetEnd rate1 rate0 ga gb => Sys2Proof.Machine.execPowerOnResetEnd rate1 rate0 ga gb s
  | .characterReceived p data marker stop => Sys2Proof.Machine.execCharacterReceived p data marker stop s

end Sys2Proof.Machine
end

