-- ==== Sys2Proof/Machine/Step.lean ====
section
/-! DEFINITION. One step: the command at the front of the queue is taken and executed on the state with the
rest of the queue. -/

namespace Sys2Proof.Machine

/-- The state with another queue of waiting commands. -/
def State.setPending (s : State) (l : List Instr) : State := { s with pending := l }

/-- One step. On an empty queue every request whose first instant has come is taken (assumption 4), the expiries that
a lease boundary owes are made (assumption 9), one character time passes on the transmit lines, and nothing else
changes (assumption 11). -/
def step (s : State) : Host.Outcome State Fault Refusal :=
  match s.pending with
  | [] => acting s (fun s => s.expireOwed.characterTime)
  | c :: rest => exec c (s.setPending rest)

/-- The state with the command that a word spells at the front of its queue; the table gives no row bits, so
no word spells one (assumption 22). -/
def State.withFetchWord (s : State) (nbits w : Nat) : State :=
  match decodeTableWord nbits w with
  | none => s
  | some c => s.setPending (c :: s.pending)

end Sys2Proof.Machine
end

