-- ==== Sys2Proof/Safety.lean ====
section
/-! DEFINITION. What a safe state is, and the words the statements are written in. The device laws are those the
manual's own rules name ("keeps this law of the device"); the rest says when a request is taken and acts, what
its reply leaves in the port, and what a notice leaves there. -/

namespace Sys2Proof.Machine

/-! ### A request is taken -/

/-- The request `f` is at the head of port `p`'s queue, its port can take it (R155), no expiry of the station's lease
comes before it (R142), and it is not replayed (R156). -/
abbrev State.ready (s : State) (p : StationNo) (f : RequestFrame) : Prop :=
  s.inReset = false ∧ (s.port p).replySlot = none ∧ (s.port p).requests.head? = some f ∧
    s.leaseOwed p = false ∧
    ¬((s.port p).lastRequest = some (f.sequence, f.code) ∧ (s.port p).replyCache.isSome)

/-- The request `f`, of code `c`, is taken in its station's session: ready, of the length of its code, and with
the session number of a BOUND station (R135, R168). -/
abbrev State.admits (s : State) (p : StationNo) (f : RequestFrame) (c : RequestCode) : Prop :=
  s.ready p f ∧ f.request = some c ∧ f.payload.length = c.payloadLength ∧
    (s.station p).session = .bound ∧ (s.station p).number = some f.session

/-- The port after a reply is placed (R157, R158): the reply and the request's sequence and code are kept; an idle
transmitter has begun the reply, and any other leaves it in the reply slot. -/
def PortRec.replied (r : PortRec) (f : RequestFrame) (outcome : ReplyCode) (payload : List Byte) :
    PortRec :=
  { r with
    lastRequest := some (f.sequence, f.code)
    replyCache := some (replyTo f outcome payload)
    replySlot := if r.transmitter = .idle then none else some (replyTo f outcome payload)
    transmitter :=
      if r.transmitter = .idle then .sending (replyTo f outcome payload).frame 0
      else r.transmitter }

/-- The port after a request has left its queue and been answered (R155). -/
def PortRec.answered (r : PortRec) (f : RequestFrame) (outcome : ReplyCode) (payload : List Byte) :
    PortRec :=
  { r with requests := r.requests.tail }.replied f outcome payload

/-- The state with port `p`'s record after the reply. -/
def State.replied (s : State) (p : StationNo) (f : RequestFrame) (outcome : ReplyCode)
    (payload : List Byte) : State :=
  s.setPort p ((s.port p).replied f outcome payload)

/-- The state with port `p`'s record after the answer. -/
def State.answered (s : State) (p : StationNo) (f : RequestFrame) (outcome : ReplyCode)
    (payload : List Byte) : State :=
  s.setPort p ((s.port p).answered f outcome payload)

/-- The state with the lease timer of station `n` set again to its lease period (R136). -/
def State.leased (s : State) (n : StationNo) : State :=
  s.setStation n { s.station n with leaseTimer := (s.station n).leasePeriod }

/-- The port of a request row of the table, and which frames are that row's. -/
def requestRow : Instr → Option (StationNo × (RequestFrame → Bool))
  | .bind p => some (p, rowOf .bind)
  | .unbind p => some (p, rowOf .unbind)
  | .keepalive p => some (p, rowOf .keepalive)
  | .portStatus p => some (p, rowOf .portStatus)
  | .timeRead p => some (p, rowOf .timeRead)
  | .timeStartImmediate p => some (p, rowOfEither .timeStart 0 1)
  | .timeStartOnMark p => some (p, rowOfEither .timeStart 0 0)
  | .timeStop p => some (p, rowOf .timeStop)
  | .claim p => some (p, rowOf .claim)
  | .release p => some (p, rowOf .release)
  | .shape p => some (p, rowOf .shape)
  | .lineRead p => some (p, rowOf .lineRead)
  | .pairBind p => some (p, rowOfEither .pair 1 0)
  | .pairUnbind p => some (p, rowOfEither .pair 1 1)
  | .post p => some (p, rowOf .post)
  | .cancelNow p => some (p, rowOfEither .cancel 2 1)
  | .cancelAtEnd p => some (p, rowOfEither .cancel 2 0)
  | .revise p => some (p, rowOf .revise)
  | .flush p => some (p, rowOf .flush)
  | .orderRead p => some (p, rowOf .orderRead)
  | .guardMap p => some (p, rowOf .guardMap)
  | .rearm p => some (p, rowOf .rearm)
  | .subscribe p => some (p, rowOf .subscribe)
  | .unsubscribe p => some (p, rowOf .unsubscribe)
  | .readCaptures p => some (p, rowOf .readCaptures)
  | .unknownRequest p => some (p, fun f => f.request == none)
  | .frameComplete _ _ => none
  | .frameEndEarly _ _ _ _ => none
  | .lineBreak _ => none
  | .breakEnd _ => none
  | .transmitEnd _ => none
  | .tick => none
  | .firing => none
  | .gapCompletion _ => none
  | .markRisingEdge => none
  | .armTimerExpiry => none
  | .leaseBoundary => none
  | .leaseExpiry _ => none
  | .waitExpiry => none
  | .guardActivation _ => none
  | .guardDeactivation _ => none
  | .captureEdge _ _ => none
  | .filterClose _ _ => none
  | .resetBegin => none
  | .powerOnResetEnd _ _ _ _ => none
  | .characterReceived _ _ _ _ => none

/-- The command waits for every request whose first instant has come (R155): any command but a request row, a
break and a lease expiry, which may meet a request at its instant (R163), and the ends of power-on reset. A lease
boundary takes such a request at its own instant (R143). -/
def takesFirst (c : Instr) : Prop :=
  requestRow c = none ∧ (∀ p, c ≠ .lineBreak p) ∧ (∀ n, c ≠ .leaseExpiry n) ∧ c ≠ .resetBegin ∧
    ∀ a b x y, c ≠ .powerOnResetEnd a b x y

/-- The port has no request whose first instant has come (R155): it holds none, or a reply waits in its slot while
its transmitter sends. -/
abbrev PortRec.settled (r : PortRec) : Prop :=
  r.requests = [] ∨ (r.replySlot ≠ none ∧ r.transmitter ≠ .idle)

/-- No request's first instant has come. -/
abbrev State.settled (s : State) : Prop := ∀ n, (s.port n).settled

/-- The part works, and no request's first instant has come. Where one has, R155 takes it before the command
(`Obligations.ReplayAnswersFromCache` says so). -/
abbrev State.atWork (s : State) : Prop := s.inReset = false ∧ s.settled

/-- A lease boundary owes no expiry: no timer that runs stands at 0 (R9, R45, R142). Where one does, TICK,
LEASE_BOUNDARY and a step on an empty queue make the expiry first (`Obligations.LeaseBoundaryCountsDown` and
`Obligations.TickAdvancesTime` say so). -/
abbrev State.unowed (s : State) : Prop :=
  ¬(s.tb.state = .armed ∧ s.tb.armTimer = some 0) ∧ (∀ w ∈ s.waiting, w.deadline ≠ 0) ∧
    ∀ n, s.leaseOwed n = false

/-- The commands of the list, made one after another from `s`, lead to `t`. -/
def State.leads (s : State) : List Instr → State → Prop
  | [], t => t = s
  | c :: rest, t => ∃ u, exec c s = .next u ∧ u.leads rest t

/-! ### Notices -/

/-- The port of a BOUND station in session `session` after a notice is appended to it (R158 to R160): a notice
that finds 8 in the queue is dropped and counted; an idle transmitter then begins the waiting reply, or else the
oldest notice. -/
def PortRec.noticed (r : PortRec) (session : Byte) (x : Notice) : PortRec :=
  let q : PortRec :=
    if r.notices.length < 8 then { r with notices := r.notices ++ [x] }
    else { r with noticesLost := if r.noticesLost = 255 then 255 else r.noticesLost + 1 }
  if r.transmitter = .idle then
    match r.replySlot, q.notices with
    | some reply, _ => { q with replySlot := none, transmitter := .sending reply.frame 0 }
    | none, y :: rest =>
      { q with
        notices := rest, noticesLost := 0, noticeSeq := q.noticeSeq + 1
        transmitter := .sending (y.frame q.noticeSeq session q.noticesLost) 0 }
    | none, [] => q
  else q

/-- The state after a notice for station `n`: nothing for a station that is not BOUND (R159). -/
def State.told (s : State) (n : StationNo) (x : Notice) : State :=
  if s.isBound n then s.setPort n ((s.port n).noticed (s.sessionByte n) x) else s

/-- The port of station `n` after the notices of the list, in its order. -/
def State.portTold (s : State) (n : StationNo) (xs : List Notice) : PortRec :=
  if s.isBound n then xs.foldl (fun r x => r.noticed (s.sessionByte n) x) (s.port n) else s.port n

/-! ### Orders, lines and claims -/

/-- The order in slot `i` satisfies `q`. -/
def State.orderIs (s : State) (q : Order → Bool) (i : SlotNo) : Bool :=
  match s.order i with
  | some o => q o
  | none => false

/-- How many slots hold an order that satisfies `q`. -/
def State.countOrders (s : State) (q : Order → Bool) : Nat :=
  ((List.finRange 128).filter (s.orderIs q)).length

/-- The order is station `n`'s and targets a line of the mask. -/
def onMask (n : StationNo) (m : LineMask) (o : Order) : Bool :=
  o.station == n && (o.body.targets &&& m) != 0

/-- The order store, the schedule list and the armed set without the orders that satisfy `q` (R57): their slots are
free and the generations of those slots advance. -/
def State.without (s : State) (q : Order → Bool) : State :=
  { s with
    slots := s.slots.map (fun x =>
      match x.order with
      | some o => if q o then ⟨x.generation + 1, none⟩ else x
      | none => x)
    schedule := s.schedule.filter (fun i => !s.orderIs q i)
    armed := s.armed.map (fun l => l.filter (fun i => !s.orderIs q i)) }

/-- The pair of line `l` is bound, and the mask names one of its lines. -/
def State.pairTouched (s : State) (m : LineMask) (l : LineNo) : Bool :=
  s.pairBound (pairOf l) && (named m (primary (pairOf l)) || named m (partner (pairOf l)))

/-- The pair state that the levels of the two lines give (R22). -/
def levelState (primaryOn partnerOn : Bool) : PairState :=
  if primaryOn then .primaryOn else if partnerOn then .partnerOn else .bothOff

/-- A waiting claim that the grant scan may not grant (R43): a line it names is held, or an older waiting claim names
one of its lines. -/
def State.blocked (s : State) (older : List WaitingClaim) (w : WaitingClaim) : Prop :=
  (∃ l, named w.claim.lines l = true ∧ s.free l = false) ∨
    ∃ v ∈ older, v.claim.lines &&& w.claim.lines ≠ 0

/-- The order `a` stands before `b` in the schedule list (R62): its next edge time is nearer, or as near and its age
greater (R61). -/
def State.ahead (s : State) (a b : Order) : Prop :=
  (a.nextEdge - s.tb.t).toNat < (b.nextEdge - s.tb.t).toNat ∨
    ((a.nextEdge - s.tb.t).toNat = (b.nextEdge - s.tb.t).toNat ∧
      (s.postSeq - b.postSeq).toNat < (s.postSeq - a.postSeq).toNat)

/-- The list `new` is the list `old` with slot `i`, holding `o`, at the place that R62 gives it: behind orders that it
does not stand before, and in front of the first that it does. -/
def State.placed (s : State) (i : SlotNo) (o : Order) (old new : List SlotNo) : Prop :=
  ∃ before after, old = before ++ after ∧ new = before ++ i :: after ∧
    (∀ j ∈ before, ∀ b, s.order j = some b → ¬s.ahead o b) ∧
    ∀ j rest b, after = j :: rest → s.order j = some b → s.ahead o b

/-- Station `n` may post an order with this body (R66): it holds every target line, no target line is the partner of
a bound pair, and the group is NORMAL. -/
abbrev State.mayTarget (s : State) (n : StationNo) (b : OrderBody) : Prop :=
  (∀ l, named b.targets l = true → s.holds n l = true) ∧
    (∀ k, s.pairBound k = true → named b.targets (partner k) = false) ∧
    (s.group b.group).state = .normal

/-- Slot `i` is the lowest-numbered free slot (R55). -/
abbrev State.lowestFreeIs (s : State) (i : SlotNo) : Prop :=
  s.order i = none ∧ ∀ j, j < i → s.order j ≠ none

/-- Slot `i` stands in no list. -/
abbrev State.unlisted (s : State) (i : SlotNo) : Prop :=
  i ∉ s.schedule ∧ ∀ c, i ∉ s.armedOn c

/-- The order of the frame `f` of station `n` as a POST makes it (R58, R67, R70). -/
def postedOrder (n : StationNo) (f : RequestFrame) (x : PostForm) (b : OrderBody)
    (trigger : Option CaptureTrigger) (state : OrderState) (seq : Time) : Order :=
  { station := n, body := b, trigger := trigger, state := state, ending := false, started := false
    late := x.late, notify := x.notify, tag := f.half 18, postSeq := seq }

/-- The handle of slot `i` as two bytes (R56). -/
def State.handleBytes (s : State) (i : SlotNo) : List Byte :=
  [BitVec.ofNat 8 i.val, (s.slot i).generation]

/-- No order is due at T. -/
abbrev State.noneDue (s : State) : Prop :=
  ∀ i ∈ s.schedule, ∀ o ph, s.order i = some o → o.state ≠ .scheduled s.tb.t ph

/-- The order in its slot `i` is the one order due at T. -/
abbrev State.onlyDue (s : State) (i : SlotNo) (o : Order) : Prop :=
  s.atWork ∧ s.running = true ∧ s.order i = some o ∧
    s.schedule.filter (s.orderIs (fun a => match a.state with
      | .scheduled e _ => e == s.tb.t
      | .armed => false)) = [i]

/-- FIRED is due for the order's first command (R77): notify FIRST or BOTH, and started no. -/
abbrev Order.owesFired (o : Order) : Prop := (o.notify = .first ∨ o.notify = .both) ∧ o.started = false

/-- The state after FIRED, where it is due (R77). -/
def State.toldFired (s : State) (h : Handle) (o : Order) (e : Time) : State :=
  if o.owesFired then s.told o.station (.fired h o.tag o.body.kind e) else s

/-- The state after ENDED, where notify is END or BOTH (R78). -/
def State.toldEnded (s : State) (h : Handle) (o : Order) (reason : EndReason) (e : Time) : State :=
  if o.notify = .atEnd ∨ o.notify = .both then s.told o.station (.ended h o.tag reason e) else s

/-- The state after a command of an order due at T (R25, R21): a gap of the line's pair that ends at T completes first. -/
def State.dueCommand (s : State) (l : LineNo) (c : LineCommand) : State :=
  (s.completeGap (pairOf l)).command l c

/-- The command `cmd` is a sample of input `c` that shows `level` and accepts an edge of direction `d` and edge time `e`:
a selected transition with filter 0, or the close of a filter at the new level (R116, R117). -/
def State.acceptsEdge (s : State) (cmd : Instr) (c : InputNo) (level : Level) (d : Direction)
    (e : Time) : Prop :=
  s.atWork ∧ s.running = true ∧ ∃ x, (s.input c).settings = some x ∧
    ((cmd = .captureEdge c level ∧ x.filter = 0 ∧ e = s.tb.t ∧
        (∃ reference, (s.input c).state = .watching (some reference) ∧ level ≠ reference) ∧
        ((level = .high ∧ d = .rising ∧ x.edges ≠ .falling) ∨
          (level = .low ∧ d = .falling ∧ x.edges ≠ .rising))) ∨
      ((cmd = .captureEdge c level ∨ cmd = .filterClose c level) ∧
        (∃ prior, (s.input c).state = .filtering prior ⟨d, e, level⟩) ∧
        s.tb.t = e + x.filter.setWidth 32))

/-! ### A station that holds nothing -/

/-- Station `n` holds nothing in any block (R145): no order and no quota, no claim, no subscription, no unread
record, and it is not the arming station. -/
abbrev State.emptyHanded (s : State) (n : StationNo) : Prop :=
  (∀ i o, s.order i = some o → o.station ≠ n) ∧ (s.station n).quota = 0 ∧
    (∀ c ∈ s.held, c.station ≠ n) ∧ (∀ w ∈ s.waiting, w.claim.station ≠ n) ∧
    (∀ c, inSet (s.input c).subscribers n = false) ∧
    (∀ r ∈ s.journal, inSet r.readers n = false) ∧ s.lostOf n = 0 ∧ s.tb.arming ≠ some n

/-- The port's part of a teardown has been made (R161): nothing is queued and nothing is remembered. -/
abbrev PortRec.emptyHanded (r : PortRec) : Prop :=
  r.requests = [] ∧ r.notices = [] ∧ r.noticesLost = 0 ∧ r.lastRequest = none ∧ r.replyCache = none

/-- Station `p` has a HELD claim with loss action SAFE that names line `l`, or a line of the bound pair of `l`
(R30, R51). -/
def State.losesSafely (s : State) (p : StationNo) (l : LineNo) : Bool :=
  s.held.any (fun c => c.station == p && c.loss == .safe && (named c.lines l || s.pairTouched c.lines l))

/-- The orders and the claims of station `p` have gone from `s`, and `t` is what is left (R81, R51, R30). Its orders
are removed. Its HELD claims are revoked: under SAFE their lines stand at their safe levels and their bound pairs in
their safe states, under HOLD as they stood, and all of them are free. Its WAITING claims are gone. One grant scan has
then run. Orders, claims and ports of the other stations are as they were, but for what the scan grants. -/
def State.gaveUp (s : State) (p : StationNo) (t : State) : Prop :=
  ∃ u : State,
    u = { s.without (fun o => o.station == p) with
      held := s.held.filter (fun c => c.station != p)
      waiting := s.waiting.filter (fun w => w.claim.station != p)
      lines := u.lines, pairs := u.pairs, stations := t.stations } ∧
    (∀ l, u.line l = { s.line l with
      holder := if s.held.any (fun c => c.station == p && named c.lines l) then none
        else (s.line l).holder
      asserted := if s.losesSafely p l then (s.line l).safe else (s.line l).asserted }) ∧
    (∀ k, u.pair k = if s.pairBound k && s.losesSafely p (primary k) then
        { s.pair k with state := levelState (s.line (primary k)).safe (s.line (partner k)).safe }
      else s.pair k) ∧
    t.held = u.grantScan.held ∧ t.waiting = u.grantScan.waiting ∧ t.lines = u.grantScan.lines ∧
    t.pairs = u.pairs ∧ t.slots = u.slots ∧ t.schedule = u.schedule ∧ t.armed = u.armed ∧
    ∀ n, n ≠ p → t.port n = u.grantScan.port n

/-- No HELD claim of another station has the id of a HELD claim of station `p` (R37). -/
abbrev State.ownIds (s : State) (p : StationNo) : Prop :=
  ∀ c ∈ s.held, c.station = p → ∀ d ∈ s.held, d.id = c.id → d.station = p

/-- Station `p` has left the capture unit of `s`, and `t` is what is left (R131, R125): its subscriptions, with an input
that loses its last subscriber IDLE; its place in every reader set, with the records at the head that no station has
still to read; and its lost count. What the other stations have there stands. -/
abbrev State.leftCapture (s : State) (p : StationNo) (t : State) : Prop :=
  (∀ c, t.input c =
    if dropStation (s.input c).subscribers p = 0 then { settings := none, subscribers := 0, state := .idle }
    else { s.input c with subscribers := dropStation (s.input c).subscribers p }) ∧
    t.journal = (s.journal.map (fun r => { r with readers := dropStation r.readers p })).dropWhile
      (fun r => r.readers == 0) ∧
    ∀ n, t.lostOf n = if n = p then 0 else s.lostOf n

/-- The teardown of station `p` turns `s` into `t` (R145), its own records in the session table and at its port apart.
The station holds nothing in any block; each block made its part; only the arming station of the timebase may have
become none (R11); no other station's record, no group, no guard, no counter and no line setting has changed. -/
abbrev State.tornDown (s : State) (p : StationNo) (t : State) : Prop :=
  t = { s with
    tb := { s.tb with arming := if s.tb.arming = some p then none else s.tb.arming }
    lines := t.lines, pairs := t.pairs, held := t.held, waiting := t.waiting, slots := t.slots
    schedule := t.schedule, armed := t.armed, inputs := t.inputs, journal := t.journal
    journalLost := t.journalLost, stations := t.stations, ports := t.ports } ∧
    t.emptyHanded p ∧ s.leftCapture p t ∧ (∀ n, n ≠ p → t.station n = s.station n) ∧
    (∀ l, (t.line l).polarity = (s.line l).polarity ∧ (t.line l).safe = (s.line l).safe) ∧
    (s.ownIds p → s.gaveUp p t)

/-! ### The device laws -/

/-- No notice queue holds more than 8 notices, and no request queue more than 2 requests (R159, R154); a reply
waits only while the transmitter sends (R158). -/
abbrev State.queueLaw (s : State) : Prop :=
  ∀ n, (s.port n).notices.length ≤ 8 ∧ (s.port n).requests.length ≤ 2 ∧
    ((s.port n).transmitter = .idle → (s.port n).replySlot = none)

/-- The claims of the table, HELD and WAITING. -/
def State.claims (s : State) : List Claim := s.held ++ s.waiting.map (fun w => w.claim)

/-- Every claim names a line, belongs to a BOUND station and has an id of its own, 1 to 255; the holder field of
a line names the one HELD claim that names the line (R36, R37). -/
abbrev State.claimLaw (s : State) : Prop :=
  (∀ c ∈ s.claims, c.lines ≠ 0 ∧ c.id ≠ 0 ∧ s.isBound c.station = true) ∧
    (s.claims.map (fun c => c.id)).Nodup ∧
    (∀ c ∈ s.held, ∀ l, named c.lines l = true → (s.line l).holder = some c.id) ∧
    (∀ l id, (s.line l).holder = some id → ∃ c ∈ s.held, c.id = id ∧ named c.lines l = true)

/-- The waiting list holds at most 8 claims, and at most 2 of any one station (R42, R43). -/
abbrev State.waitLaw (s : State) : Prop :=
  s.waiting.length ≤ 8 ∧
    ∀ n, (s.waiting.filter (fun w => w.claim.station == n)).length ≤ 2

/-- The numbers of a journal's records rise by exactly 1 from each to the next, and `next` follows the last
(R122, R123). -/
def numberedTo (next : Half) : List JournalRec → Bool
  | [] => true
  | r :: rest => r.seq == next - BitVec.ofNat 16 (rest.length + 1) && numberedTo next rest

/-- The journal holds at most 64 records, numbered in acceptance order (R122); an input is IDLE, and has no
settings, exactly while it has no subscriber (R114). -/
abbrev State.captureLaw (s : State) : Prop :=
  s.journal.length ≤ 64 ∧ numberedTo s.captureSeq s.journal = true ∧
    ∀ c, ((s.input c).state = .idle ↔ (s.input c).subscribers = 0) ∧
      ((s.input c).settings = none ↔ (s.input c).subscribers = 0)

/-- A BOUND station's session number lies in 1 to 255 and equals its port's session counter (R134). -/
abbrev State.sessionLaw (s : State) : Prop :=
  ∀ n, s.isBound n = true →
    (s.station n).number = some (s.station n).counter ∧ (s.station n).counter ≠ 0

/-- The exponents lie in their ranges, and outside ARMED there is no arming station and the arm timer is stopped
(Table 1-1, R6, R8, R9, R12). -/
abbrev State.timebaseLaw (s : State) : Prop :=
  s.tb.d ≤ 10 ∧ 16 ≤ s.tb.h ∧ s.tb.h ≤ 30 ∧
    (s.tb.state ≠ .armed → s.tb.arming = none ∧ s.tb.armTimer = none)

/-- No station has more orders than its quota; the quotas sum to at most 128, and a station that is not BOUND has
quota 0 (R59). -/
abbrev State.quotaLaw (s : State) : Prop :=
  (∀ n, s.orderCount n ≤ (s.station n).quota.toNat) ∧
    (s.station 0).quota.toNat + (s.station 1).quota.toNat + (s.station 2).quota.toNat +
      (s.station 3).quota.toNat ≤ 128 ∧
    ∀ n, s.isBound n = false → (s.station n).quota = 0

/-- While the timebase is not RUNNING, no order exists and no pair gap is in progress (R12). -/
abbrev State.haltedLaw (s : State) : Prop :=
  s.running = false → (∀ i, s.order i = none) ∧ ∀ k, (s.pair k).state.inGap = false

/-- Every line of a TRIPPED group stands at its safe level, and no gap runs in a TRIPPED group (R106). -/
abbrev State.trippedLaw (s : State) : Prop :=
  ∀ g, (s.group g).state = .tripped →
    (∀ l, groupOf l = g → (s.line l).asserted = (s.line l).safe) ∧
      ∀ k, groupOfPair k = g → (s.pair k).state.inGap = false

/-- Every order belongs to a BOUND station, its targets are lines of claims of that station, and none is the partner of
a bound pair (R58, R66, R28). -/
abbrev State.orderLaw (s : State) : Prop :=
  ∀ i o, s.order i = some o → s.isBound o.station = true ∧
    (∀ l, named o.body.targets l = true → s.holds o.station l = true) ∧
    ∀ k, s.pairBound k = true → named o.body.targets (partner k) = false

/-- Each bound state of a pair fixes both lines, so that they are never both ASSERTED (Table 2-4), and the two safe
levels of a bound pair are not both ASSERTED (R27). -/
abbrev State.pairLaw (s : State) : Prop :=
  ∀ k, match (s.pair k).state with
    | .unbound => True
    | x => ¬((s.line (primary k)).safe = true ∧ (s.line (partner k)).safe = true) ∧
        (s.line (primary k)).asserted = (x == .primaryOn) ∧
        (s.line (partner k)).asserted = (x == .partnerOn)

/-- The widths, periods and pending revision of an order lie in their ranges for the horizon `h` (Tables 4-3 and 4-5),
and a train waits for a trailing edge only where its width lies between 0 and its period (R89). -/
def Order.inRange (h : Nat) (o : Order) : Prop :=
  match o.body with
  | .step _ _ => True
  | .pulse _ w => 1 ≤ w.toNat ∧ w.toNat ≤ h
  | .train _ x =>
    2 ≤ x.period.toNat ∧ x.period.toNat ≤ h ∧ x.width.toNat ≤ x.period.toNat ∧
      (∀ r, x.pending = some r →
        2 ≤ r.period.toNat ∧ r.period.toNat ≤ h ∧ r.width.toNat ≤ r.period.toNat) ∧
      ∀ e, o.state = .scheduled e .trailing → 0 < x.width.toNat ∧ x.width.toNat < x.period.toNat
  | .pattern _ _ _ => True

/-- The schedule list holds every SCHEDULED order once and no other, in ascending order of distance and none further
than the horizon; the armed list of an input holds the ARMED orders that its edges trigger, each once (R62, R63);
and every order's spans are in range. -/
abbrev State.scheduleLaw (s : State) : Prop :=
  s.schedule.Nodup ∧
    (∀ i, i ∈ s.schedule ↔ ∃ o e ph, s.order i = some o ∧ o.state = .scheduled e ph) ∧
    s.schedule.Pairwise (fun i j => ∀ a b, s.order i = some a → s.order j = some b →
      s.distance a.nextEdge ≤ s.distance b.nextEdge) ∧
    (∀ i o, s.order i = some o → s.distance o.nextEdge ≤ s.horizon ∨ o.state = .armed) ∧
    (∀ c, (s.armedOn c).Nodup) ∧
    (∀ c i, i ∈ s.armedOn c ↔
      ∃ o tr, s.order i = some o ∧ o.state = .armed ∧ o.trigger = some tr ∧ tr.input = c) ∧
    (∀ i o, s.order i = some o → o.state = .armed → o.trigger ≠ none) ∧
    ∀ i o, s.order i = some o → o.inRange s.horizon

end Sys2Proof.Machine
end

