-- ==== Sys2Proof/Certificates/Slice0/Obligations.lean ====
section
/-! DEFINITION. The statements for the provers. Each says what a rule of the manual says of one command, of several
of one shape, or of every step; the rule is named in its docstring and in OBLIGATIONS.json. -/

open Sys2Proof Sys2Proof.Machine

/-! ### Steps, and what every request shares -/

/-- A step with a command at the front of its queue is that command's meaning on the state with the rest of the
queue. -/
def Obligations.StepRunsFrontCommand : Prop :=
  ∀ (c : Instr) (rest : List Instr) (s : State), s.pending = c :: rest →
    step s = exec c { s with pending := rest }

/-- R156, R136: a request that repeats the last request is answered with the cached reply as it was first made, and
the lease of a BOUND station restarts; nothing else changes, whichever request row it is. R155: a request is taken at
the first instant at which its port holds it and the reply slot is empty. Its row of the table takes it; where another
command comes first, the request is taken before that command, and nothing that can be taken is left; one port's
takings are of its own queue, at most two of them. LEASE_BOUNDARY takes it at its own instant, and leaves none either.
That BREAK, LEASE_EXPIRY and other request rows may still come before it, and that ports go in ascending order, is the
model's reading of R143 and R163 (assumption 4). On an empty
queue of commands the takings are made too; that such a step also makes the expiries that a lease boundary owes and
then lets one character time pass on the transmit lines, and nothing else, is the model's choice (assumptions 9 and
11). -/
def Obligations.ReplayAnswersFromCache : Prop :=
  (∀ (c : Instr) (p : StationNo) (row : RequestFrame → Bool) (s : State) (f : RequestFrame) (r : Reply),
    requestRow c = some (p, row) → s.inReset = false → (s.port p).replySlot = none →
    (s.port p).requests.head? = some f → row f = true → s.leaseOwed p = false →
    (s.port p).lastRequest = some (f.sequence, f.code) → (s.port p).replyCache = some r →
    exec c s = .next ((if s.isBound p then s.leased p else s).setPort p
      { s.port p with
        requests := (s.port p).requests.tail
        replySlot := if (s.port p).transmitter = .idle then none else some r
        transmitter :=
          if (s.port p).transmitter = .idle then .sending r.frame 0 else (s.port p).transmitter })) ∧
  (∀ (c : Instr) (p : StationNo) (row : RequestFrame → Bool) (s : State) (f : RequestFrame),
    requestRow c = some (p, row) → s.inReset = false → (s.port p).replySlot = none →
    (s.port p).requests.head? = some f → row f = true → exec c s = .next (s.takeHead p)) ∧
  (∀ (c : Instr) (s : State), takesFirst c → c ≠ .leaseBoundary → s.queueLaw →
    exec c s = exec c s.takeDue) ∧
  (∀ (s : State), s.inReset = false → s.queueLaw → ∃ t, exec .leaseBoundary s = .next t ∧ t.settled) ∧
  (∀ (s : State), s.inReset = false → s.queueLaw → s.takeDue.settled) ∧
  (∀ (s : State) (p : StationNo), (∀ n, n ≠ p → (s.port n).settled) →
    s.takeDue = (s.takeHead p).takeHead p) ∧
  ∀ (s : State), s.pending = [] →
    (s.inReset = false → step s = .next s.takeDue.expireOwed.characterTime) ∧
    (s.inReset = true → step s = .next s)

/-- R168, R135, R136: the common checks, in order. A code that names no request is UNKNOWN_REQUEST and a wrong length
BAD_FORMAT, whatever the session; then the session check gives NOT_BOUND, STALE_SESSION or BOUND. The reply carries no
payload, and only the lease of a BOUND station whose number the frame carries restarts. -/
def Obligations.CommonChecksRefuse : Prop :=
  ∀ (c : Instr) (p : StationNo) (row : RequestFrame → Bool) (s : State) (f : RequestFrame),
    requestRow c = some (p, row) → s.ready p f → row f = true →
    let t := if s.isBound p = true ∧ (s.station p).number = some f.session then s.leased p else s
    (f.request = none → exec c s = .next (t.answered p f .unknownRequest [])) ∧
    ∀ k, f.request = some k →
      (f.payload.length ≠ k.payloadLength → exec c s = .next (t.answered p f .badFormat [])) ∧
      (f.payload.length = k.payloadLength → k ≠ .bind → k ≠ .portStatus →
        ((s.station p).session = .unbound → exec c s = .next (s.answered p f .notBound [])) ∧
        ((s.station p).session = .lapsed → exec c s = .next (s.answered p f .staleSession [])) ∧
        ((s.station p).session = .bound → (s.station p).number ≠ some f.session →
          exec c s = .next (s.answered p f .staleSession []))) ∧
      (f.payload.length = k.payloadLength → k = .bind → (s.station p).session = .bound →
        exec c s = .next (t.answered p f .bound []))

/-! ### Sessions -/

/-- R138, R134, R59: an accepted BIND steps the session counter, grants the smaller of the quota asked for and the
unreserved count, sets the lease, and starts the port's notice sequence at 0. R137: a session field that is not 0, a
quota above 128 or a lease period of 0 is BAD_VALUE, and nothing changes but the reply. -/
def Obligations.BindOpensSession : Prop :=
  (∀ (p : StationNo) (s : State) (f : RequestFrame),
    s.ready p f → f.request = some .bind → f.payload.length = 3 →
    (s.station p).session ≠ .bound → f.session = 0 → (f.at 0).toNat ≤ 128 → f.half 1 ≠ 0 →
    let number : Byte := if (s.station p).counter = 255 then 1 else (s.station p).counter + 1
    let quota : Byte := BitVec.ofNat 8 (min (f.at 0).toNat s.unreserved)
    exec (.bind p) s = .next
      (((s.setStation p
          { session := .bound, number := some number, counter := number
            leasePeriod := some (f.half 1), leaseTimer := some (f.half 1), quota := quota }).setPort p
          { s.port p with noticeSeq := 0 }).answered p f .ok
        ([number, quota] ++ bytes16 (f.half 1) ++ [128, 64, 16, 8, s.tb.state.byte]))) ∧
  ∀ (p : StationNo) (s : State) (f : RequestFrame),
    s.ready p f → f.request = some .bind → f.payload.length = 3 →
    (s.station p).session ≠ .bound →
    (f.session ≠ 0 ∨ 128 < (f.at 0).toNat ∨ f.half 1 = 0) →
    exec (.bind p) s = .next (s.answered p f .badValue [])

/-- R140: KEEPALIVE restarts the lease and does nothing else; its reply carries the session number and the lease
period in force. -/
def Obligations.KeepaliveRestartsLease : Prop :=
  ∀ (p : StationNo) (s : State) (f : RequestFrame) (lease : Half), s.admits p f .keepalive →
    (s.station p).leasePeriod = some lease →
    exec (.keepalive p) s = .next ((s.leased p).answered p f .ok (f.session :: bytes16 lease))

/-- R162: PORT_STATUS answers in every session state with the six discard counters in their order and the session
state, and clears them when it is asked to; a clear byte that is neither NO nor YES is BAD_VALUE. -/
def Obligations.PortStatusReports : Prop :=
  ∀ (p : StationNo) (s : State) (f : RequestFrame),
    s.ready p f → f.request = some .portStatus → f.payload.length = 1 →
    let t := if s.isBound p = true ∧ (s.station p).number = some f.session then s.leased p else s
    let d := (s.port p).discards
    let report := bytes16 d.framing ++ bytes16 d.short ++ bytes16 d.long ++ bytes16 d.check ++
      bytes16 d.kind ++ bytes16 d.full ++ [(s.station p).session.byte]
    (f.at 0 = 0 → exec (.portStatus p) s = .next (t.answered p f .ok report)) ∧
    (f.at 0 = 1 → exec (.portStatus p) s = .next
      ((t.setPort p { s.port p with discards := ⟨0, 0, 0, 0, 0, 0⟩ }).answered p f .ok report)) ∧
    (f.at 0 ≠ 0 → f.at 0 ≠ 1 →
      exec (.portStatus p) s = .next (t.answered p f .badValue []))

/-- R141, R145, R161: UNBIND tears its station down. The station is UNBOUND and keeps only its session counter, it
holds nothing in any block, its port keeps only the reply, and the reply counts what was removed. R11: of the timebase
only the arming station may become none. No other station's record, no generation-independent counter and no group
changes. R81, R51, R30: its orders go, its HELD claims are revoked with their loss actions, its WAITING claims leave,
and one grant scan follows; the other stations keep their orders and claims. R131, R125: the other stations keep their
subscriptions, their unread records and their lost counts. -/
def Obligations.UnbindTearsDown : Prop :=
  ∀ (p : StationNo) (s : State) (f : RequestFrame), s.admits p f .unbind →
    let r := replyTo f .ok
      [BitVec.ofNat 8 (s.orderCount p),
       BitVec.ofNat 8 (s.held.filter (fun c => c.station == p)).length,
       BitVec.ofNat 8 (s.waiting.filter (fun w => w.claim.station == p)).length]
    ∃ t, exec (.unbind p) s = .next t ∧
      t.station p = { s.station p with
        session := .unbound, number := none, leasePeriod := none, leaseTimer := none, quota := 0 } ∧
      s.tornDown p t ∧ (t.port p).emptyHanded ∧
      (t.port p).replySlot = (if (s.port p).transmitter = .idle then none else some r) ∧
      (t.port p).transmitter =
        (if (s.port p).transmitter = .idle then .sending r.frame 0 else (s.port p).transmitter)

/-- R142, R145, R161: the expiry of a lease tears its station down. The station is LAPSED and keeps its session
number, it holds nothing in any block, and its port is emptied while a frame being sent goes on. R81, R51, R30, R131,
R125, R11: its orders, its claims with their loss actions, its part of the capture unit and the arming station go as at
UNBIND, and nothing else changes. R143, a request with the station's session number that
meets the boundary: taken first, at the boundary's instant, it restarts the lease, whatever the period and whatever was
left, and no expiry occurs at that boundary; an UNBIND so taken leaves the station UNBOUND. Where the boundary that
brought the timer to 0 has passed, a request restarts nothing: the expiry is made, whichever request row it is, and the
request is discarded without a reply. That a request which waits at the LEASE_BOUNDARY is of its instant and taken
first, that the timer stands at 0 until the expiry is commanded, or made before a later command, are the model's
choices (assumption 9). -/
def Obligations.LeaseExpiryTearsDown : Prop :=
  (∀ (n : StationNo) (s : State), s.inReset = false → (s.station n).session = .bound →
    (s.station n).leaseTimer = some 0 →
    ∃ t, exec (.leaseExpiry n) s = .next t ∧
      t.station n = { s.station n with
        session := .lapsed, leasePeriod := none, leaseTimer := none, quota := 0 } ∧
      s.tornDown n t ∧ (t.port n).emptyHanded ∧ (t.port n).replySlot = none ∧
      (t.port n).transmitter = (s.port n).transmitter ∧
      (t.port n).receiver = (s.port n).receiver ∧ (t.port n).buffer = (s.port n).buffer ∧
      (t.port n).discards = (s.port n).discards ∧ (t.port n).noticeSeq = (s.port n).noticeSeq) ∧
  (∀ (n : StationNo) (s : State) (f : RequestFrame) (period : Half), s.ready n f →
    (s.port n).requests = [f] → (∀ m, m ≠ n → (s.port m).settled) → s.unowed →
    (s.station n).session = .bound → (s.station n).number = some f.session →
    (s.station n).leasePeriod = some period → period ≠ 0 →
    ∃ t, exec .leaseBoundary s = .next t ∧ exec (.leaseExpiry n) t = .next t ∧ t.settled ∧
      (¬(f.request = some .unbind ∧ f.payload = []) → t.station n =
        { s.station n with leaseTimer := some period }) ∧
      (f.request = some .unbind → f.payload = [] → (t.station n).session = .unbound)) ∧
  ∀ (c : Instr) (n : StationNo) (row : RequestFrame → Bool) (s : State) (f : RequestFrame),
    requestRow c = some (n, row) → s.inReset = false → (s.port n).replySlot = none →
    (s.port n).requests.head? = some f → row f = true →
    (s.station n).session = .bound → (s.station n).leaseTimer = some 0 →
    exec c s = exec (.leaseExpiry n) s

/-- R153, R144, R152: a break empties its port, cuts the frame being sent, and ends the session: a BOUND station is
torn down as at UNBIND (R145, R81, R51, R30, R131, R125, R11); a LAPSED one becomes UNBOUND, an UNBOUND one is
unchanged, and then nothing changes beside that record and the port. The receiver leaves BREAK when the line is high
again. That the character being sent ends at the next TRANSMIT_END is the model's reading (assumption 12). -/
def Obligations.BreakEndsSession : Prop :=
  ∀ (p : StationNo) (s : State), s.inReset = false →
    ((s.port p).receiver ≠ .inBreak →
      ∃ t, exec (.lineBreak p) s = .next t ∧
        t.port p = { s.port p with
          receiver := .inBreak, buffer := [], requests := [], replySlot := none, lastRequest := none
          replyCache := none, notices := [], noticesLost := 0
          transmitter :=
            match (s.port p).transmitter with
            | .idle => .idle
            | .sending frame k => .cut frame k
            | .cut frame k => .cut frame k } ∧
        ((s.station p).session = .bound →
          t.station p = { s.station p with
            session := .unbound, number := none, leasePeriod := none, leaseTimer := none
            quota := 0 } ∧ s.tornDown p t) ∧
        ((s.station p).session = .lapsed →
          t.station p = { s.station p with
            session := .unbound, number := none, leasePeriod := none, leaseTimer := none }) ∧
        ((s.station p).session = .unbound → t.station p = s.station p) ∧
        ((s.station p).session ≠ .bound →
          t = (s.setStation p (t.station p)).setPort p (t.port p)) ∧
        ∀ n, n ≠ p → t.station n = s.station n) ∧
    (s.settled → (s.port p).receiver = .inBreak →
      exec (.breakEnd p) s = .next (s.setPort p { s.port p with receiver := .hunt }))

/-! ### The timebase and the lease clock -/

/-- R13: TIME_READ changes nothing (but the lease and the reply, as every request) and reports the state, T, d, h,
the arming station and the lease units that remain on the arm timer. -/
def Obligations.TimeReadReports : Prop :=
  ∀ (p : StationNo) (s : State) (f : RequestFrame), s.admits p f .timeRead →
    exec (.timeRead p) s = .next ((s.leased p).answered p f .ok
      ([(match s.tb.state with | .halted => 0 | .armed => 1 | .running => 2 : Byte)] ++ bytes32 s.tb.t ++
        [BitVec.ofNat 8 s.tb.d, BitVec.ofNat 8 s.tb.h,
         match s.tb.arming with | none => 0xFF | some n => BitVec.ofNat 8 n.val] ++
        bytes16 (match s.tb.armTimer with | none => 0 | some n => n)))

/-- R5, R6, R7, R14: an accepted TIME_START sets d and h and loads T when a start value is present. IMMEDIATE enters
RUNNING and sends TIME_STARTED to every other BOUND station; ON_MARK enters ARMED with the requester as arming
station. In ARMED or RUNNING either is refused TIMEBASE_STATE, and a value out of range is BAD_VALUE. That either
row takes a frame whose mode names neither is the model's reading (assumption 5). -/
def Obligations.TimeStartStartsOrRefuses : Prop :=
  ∀ (p : StationNo) (s : State) (f : RequestFrame), s.admits p f .timeStart →
    let inRange := (f.at 1).toNat ≤ 10 ∧ 16 ≤ (f.at 2).toNat ∧ (f.at 2).toNat ≤ 30 ∧
      (f.at 3 = 0 ∨ f.at 3 = 1)
    let start : Time := if f.at 3 = 1 then f.time 4 else s.tb.t
    (s.tb.state = .halted → inRange → f.at 0 = 0 →
      ∃ t, exec (.timeStartImmediate p) s = .next t ∧
        t = { s.leased p with tb := t.tb, ports := t.ports } ∧
        t.tb = { s.tb with
          state := .running, t := start, d := (f.at 1).toNat, h := (f.at 2).toNat } ∧
        t.port p = (s.port p).answered f .ok (2 :: bytes32 start) ∧
        ∀ n, n ≠ p → t.port n =
          if s.isBound n then
            (s.port n).noticed (s.sessionByte n) (.timeStarted start (f.at 1).toNat (f.at 2).toNat)
          else s.port n) ∧
    (s.tb.state = .halted → inRange → f.at 0 = 1 →
      exec (.timeStartOnMark p) s = .next (({ s.leased p with
        tb := { state := .armed, t := start, d := (f.at 1).toNat, h := (f.at 2).toNat
                arming := some p
                armTimer := if f.half 8 = 0 then none else some (f.half 8) } }).answered p f .ok
        (1 :: bytes32 start))) ∧
    (s.tb.state ≠ .halted →
      (f.at 0 ≠ 1 →
        exec (.timeStartImmediate p) s = .next ((s.leased p).answered p f .timebaseState [])) ∧
      (f.at 0 ≠ 0 →
        exec (.timeStartOnMark p) s = .next ((s.leased p).answered p f .timebaseState []))) ∧
    (s.tb.state = .halted → (¬inRange ∨ (f.at 0 ≠ 0 ∧ f.at 0 ≠ 1)) →
      (f.at 0 ≠ 1 →
        exec (.timeStartImmediate p) s = .next ((s.leased p).answered p f .badValue [])) ∧
      (f.at 0 ≠ 0 →
        exec (.timeStartOnMark p) s = .next ((s.leased p).answered p f .badValue [])))

/-- R12, R118: TIME_STOP is refused IN_USE while an order or a gap exists. Otherwise it halts the timebase with T
held: from RUNNING the inputs stop being sampled, from ARMED the arm timer stops and the arming station becomes
none, and in HALTED nothing changes. The reply carries the state found and T. -/
def Obligations.TimeStopHaltsOrRefuses : Prop :=
  ∀ (p : StationNo) (s : State) (f : RequestFrame), s.admits p f .timeStop →
    (((∃ i, s.order i ≠ none) ∨ ∃ k, (s.pair k).state.inGap = true) →
      exec (.timeStop p) s = .next ((s.leased p).answered p f .inUse [])) ∧
    ((∀ i, s.order i = none) → (∀ k, (s.pair k).state.inGap = false) →
      (s.tb.state = .running →
        ∃ t, exec (.timeStop p) s = .next t ∧
          t = ({ s.leased p with
            tb := { s.tb with state := .halted }
            inputs := t.inputs }).answered p f .ok (2 :: bytes32 s.tb.t) ∧
          ∀ c, t.input c =
            if (s.input c).state = .idle then s.input c
            else { s.input c with state := .watching none }) ∧
      (s.tb.state = .armed →
        exec (.timeStop p) s = .next (({ s.leased p with
          tb := { s.tb with state := .halted, armTimer := none, arming := none } }).answered p f .ok
          (1 :: bytes32 s.tb.t))) ∧
      (s.tb.state = .halted →
        exec (.timeStop p) s = .next ((s.leased p).answered p f .ok (0 :: bytes32 s.tb.t))))

/-- R1, R2: at a tick T advances by 1 while RUNNING, wrapping to 0, and is held in HALTED and ARMED. The tick reaches
only what is due at the T that ends: where nothing is, T is all that changes. Where something is, a TICK does what
FIRING, then GAP_COMPLETION of each pair and FILTER_CLOSE of each input, at the level that its edge in filter has, do
when they are commanded before it. That a TICK does the work still undone at the old T, and in that order, and that it
first makes the expiries that a lease boundary owes (LeaseBoundaryCountsDown says which), are the model's choices
(assumptions 7 and 9). -/
def Obligations.TickAdvancesTime : Prop :=
  (∀ (s : State), s.atWork → exec .tick s = exec .tick s.expireOwed) ∧
  (∀ (s : State) (level : InputNo → Level), s.atWork → s.unowed → s.running = true →
    (∀ c before edge, (s.input c).state = .filtering before edge → level c = edge.newLevel) →
    ∃ u : State, s.leads ([.firing] ++ (List.finRange 8).map (fun k => .gapCompletion k) ++
        (List.finRange 8).map (fun c => .filterClose c (level c))) u ∧
      exec .tick s = .next { u with tb := { u.tb with t := u.tb.t + 1 } }) ∧
  ∀ (s : State), s.atWork → s.unowed →
    (s.running = true →
      ∃ t, exec .tick s = .next t ∧ t = { s with
        tb := { s.tb with t := s.tb.t + 1 }
        lines := t.lines, pairs := t.pairs, slots := t.slots, schedule := t.schedule
        armed := t.armed, ports := t.ports, inputs := t.inputs, journal := t.journal
        captureSeq := t.captureSeq, journalLost := t.journalLost }) ∧
    (s.running = true →
      (∀ i ∈ s.schedule, ∀ o, s.order i = some o → ∀ ph, o.state ≠ .scheduled s.tb.t ph) →
      (∀ k, (s.pair k).state ≠ .gapToPrimary s.tb.t ∧ (s.pair k).state ≠ .gapToPartner s.tb.t) →
      (∀ c level edge x, (s.input c).state = .filtering level edge → (s.input c).settings = some x →
        edge.edgeTime + x.filter.setWidth 32 ≠ s.tb.t) →
      exec .tick s = .next { s with tb := { s.tb with t := s.tb.t + 1 } }) ∧
    (s.running = false → exec .tick s = .next s)

/-- R8, R9, R14: what ends ARMED. A rising edge of Mark starts the timebase and tells every BOUND station; the
expiry of the arm timer halts it and tells the arming station alone. In any other state neither has an effect. That
an expiry outside ARMED is no event and changes nothing, and that the timer stands at 0 until its expiry, are the
model's choices (assumptions 1 and 9). -/
def Obligations.ArmedTimebaseStartsOrTimesOut : Prop :=
  ∀ (s : State), s.atWork →
    (s.tb.state = .armed →
      ∃ t, exec .markRisingEdge s = .next t ∧
        t = { s with
          tb := { s.tb with state := .running, armTimer := none, arming := none }
          ports := t.ports } ∧
        ∀ n, t.port n =
          if s.isBound n then
            (s.port n).noticed (s.sessionByte n) (.timeStarted s.tb.t s.tb.d s.tb.h)
          else s.port n) ∧
    (s.tb.state ≠ .armed → exec .markRisingEdge s = .next s ∧ exec .armTimerExpiry s = .next s) ∧
    (s.tb.state = .armed → s.tb.armTimer = some 0 →
      ∃ t, exec .armTimerExpiry s = .next t ∧
        t = { s with
          tb := { s.tb with state := .halted, armTimer := none, arming := none }
          ports := t.ports } ∧
        ∀ n, t.port n =
          if s.tb.arming = some n ∧ s.isBound n = true then
            (s.port n).noticed (s.sessionByte n) (.markTimeout s.tb.t s.tb.d s.tb.h)
          else s.port n)

/-- R15: a lease boundary decrements every running lease-unit timer by 1: the lease timers, the wait deadlines and
the arm timer; the lease clock counts the unit, and nothing else changes. Where requests wait to be taken, they are
taken at the boundary's instant: the boundary decrements no timer that they set, and the arm timer only if it ran
before. R142, R45, R9: no boundary passes over an
expiry that an earlier one has brought about: each that is owed is made first, as its own command makes it, and none is
owed then. That the order is the arm timer's, the waiting claims', the leases' by station, and that a timer at 0 stands
there until then, are the model's choices, and so is that a waiting request is of the boundary's own instant
(assumption 9). -/
def Obligations.LeaseBoundaryCountsDown : Prop :=
  (∀ (s : State), s.atWork → s.unowed →
    let down : Half → Half := fun n => if n = 0 then 0 else n - 1
    ∃ t, exec .leaseBoundary s = .next t ∧
      t = { s with
        leaseClock := s.leaseClock + 1
        tb := { s.tb with armTimer := s.tb.armTimer.map down }
        waiting := s.waiting.map (fun w => { w with deadline := down w.deadline })
        stations := t.stations } ∧
      ∀ n, t.station n =
        { s.station n with leaseTimer := (s.station n).leaseTimer.map down }) ∧
  (∀ (s : State), s.inReset = false → s.unowed →
    let down : Half → Half := fun n => if n = 0 then 0 else n - 1
    ∃ u : State,
      u = { s with
        leaseClock := s.leaseClock + 1
        waiting := s.waiting.map (fun w => { w with deadline := down w.deadline })
        stations := u.stations } ∧
      (∀ n, u.station n = { s.station n with leaseTimer := (s.station n).leaseTimer.map down }) ∧
      exec .leaseBoundary s = .next { u.serveDue with
        tb := { u.serveDue.tb with
          armTimer :=
            if s.tb.armTimer = none then u.serveDue.tb.armTimer
            else u.serveDue.tb.armTimer.map down } }) ∧
  (∀ (s : State), s.inReset = false → exec .leaseBoundary s = exec .leaseBoundary s.expireOwed) ∧
  ∀ (s : State), s.atWork →
    s.expireOwed.atWork ∧ s.expireOwed.unowed ∧
    ∃ a b c d e : State,
      exec .armTimerExpiry s = .next a ∧ exec .waitExpiry a = .next b ∧
      exec (.leaseExpiry 0) b = .next c ∧ exec (.leaseExpiry 1) c = .next d ∧
      exec (.leaseExpiry 2) d = .next e ∧ exec (.leaseExpiry 3) e = .next s.expireOwed

/-! ### Lines and pairs -/

/-- R20, R21, R23, R24, R22: the way of a command. In a TRIPPED group it changes nothing. On a line that is not the
primary of a bound pair it sets the asserted state. On the primary of a bound pair it turns the pair towards the
side it means, through a gap, unless the pair stands or turns that way already; INVERT is decided by the intended
side. -/
def Obligations.CommandSetsLineOrTurnsPair : Prop :=
  ∀ (s : State) (l : LineNo) (c : LineCommand),
    let k := pairOf l
    let r := s.line l
    let x := s.pair k
    let toPrimary : Bool := match c with
      | .assert => true
      | .deassert => false
      | .level a => a
      | .invert =>
        match x.state with
        | .primaryOn => false
        | .gapToPrimary _ => false
        | _ => true
    ((s.group (groupOf l)).state = .tripped → s.command l c = s) ∧
    ((s.group (groupOf l)).state = .normal → (l = partner k ∨ x.state = .unbound) →
      s.command l c = s.setLine l { r with asserted := match c with
        | .assert => true
        | .deassert => false
        | .level a => a
        | .invert => !r.asserted }) ∧
    ((s.group (groupOf l)).state = .normal → l = primary k → x.state ≠ .unbound →
      (toPrimary = true →
        ((x.state = .primaryOn ∨ ∃ e, x.state = .gapToPrimary e) → s.command l c = s) ∧
        ((x.state = .bothOff ∨ x.state = .partnerOn ∨ ∃ e, x.state = .gapToPartner e) →
          s.command l c =
            if x.gap = 0 then
              ((s.setLine (partner k) { s.line (partner k) with asserted := false }).setLine l
                { r with asserted := true }).setPair k { x with state := .primaryOn }
            else
              (s.setLine (partner k) { s.line (partner k) with asserted := false }).setPair k
                { x with state := .gapToPrimary (s.tb.t + x.gap.setWidth 32) })) ∧
      (toPrimary = false →
        ((x.state = .partnerOn ∨ ∃ e, x.state = .gapToPartner e) → s.command l c = s) ∧
        ((x.state = .bothOff ∨ x.state = .primaryOn ∨ ∃ e, x.state = .gapToPrimary e) →
          s.command l c =
            if x.gap = 0 then
              ((s.setLine l { r with asserted := false }).setLine (partner k)
                { s.line (partner k) with asserted := true }).setPair k { x with state := .partnerOn }
            else
              (s.setLine l { r with asserted := false }).setPair k
                { x with state := .gapToPartner (s.tb.t + x.gap.setWidth 32) })))

/-- R25: a gap that ends at T completes: the named side is asserted and the pair enters its ON state. Where no gap
of the pair ends at T, or the timebase is not RUNNING, nothing changes. The last is the model's choice: no event, no
change (assumption 1). -/
def Obligations.GapCompletes : Prop :=
  ∀ (k : PairNo) (s : State), s.atWork →
    (s.running = true → (s.pair k).state = .gapToPrimary s.tb.t →
      exec (.gapCompletion k) s = .next
        ((s.setLine (primary k) { s.line (primary k) with asserted := true }).setPair k
          { s.pair k with state := .primaryOn })) ∧
    (s.running = true → (s.pair k).state = .gapToPartner s.tb.t →
      exec (.gapCompletion k) s = .next
        ((s.setLine (partner k) { s.line (partner k) with asserted := true }).setPair k
          { s.pair k with state := .partnerOn })) ∧
    ((s.running = false ∨
        ((s.pair k).state ≠ .gapToPrimary s.tb.t ∧ (s.pair k).state ≠ .gapToPartner s.tb.t)) →
      exec (.gapCompletion k) s = .next s)

/-- R31, R32, R27: an accepted SHAPE gives every line of its mask the settings it names and keeps the rest. In a
TRIPPED group a line whose safe level changes goes to its new safe level, and a bound pair with such a line to its
safe state. Nothing else changes. The checks refuse it in their order, and a refused SHAPE changes no line. R17,
Table 2-2: outside power-on reset the pin of a line follows its record, high-impedance with drive OFF and else the
level that the asserted state and the polarity give. -/
def Obligations.ShapeSetsLines : Prop :=
  (∀ (p : StationNo) (s : State) (f : RequestFrame), s.admits p f .shape →
      let m := f.half 0
      let keepOr {α : Type} (b : Byte) (off on old : α) : α :=
        if b = 0xFF then old else if b = 1 then on else off
      let safeOf (l : LineNo) : Bool :=
        if named m l then keepOr (f.at 3) false true (s.line l).safe else (s.line l).safe
      let moved (l : LineNo) : Bool :=
        (s.group (groupOf l)).state == .tripped && (safeOf l != (s.line l).safe)
      let pairMoved (k : PairNo) : Bool :=
        s.pairBound k && (moved (primary k) || moved (partner k))
      m ≠ 0 → (∀ b ∈ [f.at 2, f.at 3, f.at 4], b = 0 ∨ b = 1 ∨ b = 0xFF) →
      (∀ l, named m l = true → s.holds p l = true) →
      (∀ i o, s.order i = some o → o.station = p → o.body.targets &&& m = 0) →
      (∀ k, s.pairBound k = true → (named m (primary k) = true ∨ named m (partner k) = true) →
        ¬(safeOf (primary k) = true ∧ safeOf (partner k) = true)) →
      ∃ t : State, exec (.shape p) s = .next t ∧
        t = ({ s.leased p with lines := t.lines, pairs := t.pairs }).answered p f .ok [] ∧
        (∀ l, t.line l = { s.line l with
          polarity :=
            if named m l then keepOr (f.at 2) .normal .inverted (s.line l).polarity
            else (s.line l).polarity
          safe := safeOf l
          driveOn :=
            if named m l then keepOr (f.at 4) false true (s.line l).driveOn else (s.line l).driveOn
          asserted :=
            if pairMoved (pairOf l) || moved l then safeOf l else (s.line l).asserted }) ∧
        ∀ k, t.pair k = if pairMoved k then
            { s.pair k with state := levelState (safeOf (primary k)) (safeOf (partner k)) }
          else s.pair k) ∧
  (∀ (p : StationNo) (s : State) (f : RequestFrame), s.admits p f .shape →
      let m := f.half 0
      let refused (outcome : ReplyCode) : Prop :=
        exec (.shape p) s = .next ((s.leased p).answered p f outcome [])
      let good := m ≠ 0 ∧ ∀ b ∈ [f.at 2, f.at 3, f.at 4], b = 0 ∨ b = 1 ∨ b = 0xFF
      let held := ∀ l, named m l = true → s.holds p l = true
      let targeted := ∃ i o, s.order i = some o ∧ o.station = p ∧ o.body.targets &&& m ≠ 0
      let safeOf (l : LineNo) : Bool :=
        if named m l = true ∧ f.at 3 ≠ 0xFF then f.at 3 == 1 else (s.line l).safe
      (¬good → refused .badValue) ∧
      (good → ¬held → refused .notHolder) ∧
      (good → held → targeted → refused .inUse) ∧
      (good → held → ¬targeted →
        (∃ k, s.pairBound k = true ∧ (named m (primary k) = true ∨ named m (partner k) = true) ∧
          safeOf (primary k) = true ∧ safeOf (partner k) = true) →
        refused .badValue)) ∧
  ∀ (s : State) (l : LineNo), s.inReset = false →
    let r := s.line l
    (r.driveOn = false → s.linePin l = .highImpedance) ∧
    (r.driveOn = true → r.asserted = true → r.polarity = .normal → s.linePin l = .high) ∧
    (r.driveOn = true → r.asserted = true → r.polarity = .inverted → s.linePin l = .low) ∧
    (r.driveOn = true → r.asserted = false → r.polarity = .normal → s.linePin l = .low) ∧
    (r.driveOn = true → r.asserted = false → r.polarity = .inverted → s.linePin l = .high)

/-- R34: LINE_READ changes nothing (but the lease and the reply) and describes its group: four line entries in
ascending order, the group's state and map, and its two pairs with the end time of a gap and 0 in any other state. A
group number outside 0 to 3 is BAD_VALUE. -/
def Obligations.LineReadDescribesGroup : Prop :=
  ∀ (p : StationNo) (s : State) (f : RequestFrame), s.admits p f .lineRead →
    let entry (l : LineNo) : List Byte :=
      [match (s.line l).holder with | none => 0 | some id => id,
       match s.holderStation l with | none => 0xFF | some n => BitVec.ofNat 8 n.val,
       BitVec.ofNat 8 ((if (s.line l).asserted then 1 else 0) +
         (if (s.line l).polarity = .inverted then 2 else 0) +
         (if (s.line l).safe then 4 else 0) + (if (s.line l).driveOn then 8 else 0))]
    let pairEntry (k : PairNo) : List Byte :=
      (match (s.pair k).state with
        | .unbound => [0, (s.pair k).gap] ++ bytes32 0
        | .bothOff => [1, (s.pair k).gap] ++ bytes32 0
        | .primaryOn => [2, (s.pair k).gap] ++ bytes32 0
        | .partnerOn => [3, (s.pair k).gap] ++ bytes32 0
        | .gapToPrimary e => [4, (s.pair k).gap] ++ bytes32 e
        | .gapToPartner e => [5, (s.pair k).gap] ++ bytes32 e)
    (∀ g : GroupNo, (f.at 0).toNat = g.val →
      exec (.lineRead p) s = .next ((s.leased p).answered p f .ok
        (entry (groupLine g 0) ++ entry (groupLine g 1) ++ entry (groupLine g 2) ++
          entry (groupLine g 3) ++
          [(match (s.group g).state with | .normal => 0 | .tripped => 1 : Byte),
           (match (s.group g).map with | .none => 0 | .ga => 1 | .gb => 2 | .either => 3 : Byte)] ++
          pairEntry ⟨2 * g.val, by omega⟩ ++ pairEntry ⟨2 * g.val + 1, by omega⟩))) ∧
    (4 ≤ (f.at 0).toNat →
      exec (.lineRead p) s = .next ((s.leased p).answered p f .badValue []))

/-- R28, R29: an accepted PAIR BIND stores the gap; on an UNBOUND pair it also deasserts the partner where both
lines are ASSERTED and sets the state from the levels. An accepted PAIR UNBIND cancels any gap, leaves both lines
and keeps the gap value. The reply carries the pair's state and gap after the request. The checks refuse both
operations in their order, and a refused PAIR changes nothing but the lease and the reply. That either row takes a
frame whose operation names neither is the model's reading (assumption 5). -/
def Obligations.PairBindsAndUnbinds : Prop :=
  (∀ (p : StationNo) (s : State) (f : RequestFrame) (k : PairNo), s.admits p f .pair →
      (f.at 0).toNat = k.val → (s.line (primary k)).holder = (s.line (partner k)).holder →
      s.holds p (primary k) = true →
      (∀ i o, s.order i = some o → o.station = p →
        o.body.targets &&& (lineMask (primary k) ||| lineMask (partner k)) = 0) →
      let a := (s.line (primary k)).asserted
      let b := (s.line (partner k)).asserted
      (f.at 1 = 1 →
        (∀ w ∈ s.waiting, named w.claim.lines (primary k) = named w.claim.lines (partner k)) →
        ¬((s.line (primary k)).safe = true ∧ (s.line (partner k)).safe = true) →
        (s.pairBound k = true →
          exec (.pairBind p) s = .next (((s.leased p).setPair k
            { s.pair k with gap := f.at 2 }).answered p f .ok [(s.pair k).state.byte, f.at 2])) ∧
        (s.pairBound k = false →
          exec (.pairBind p) s = .next ((((s.leased p).setLine (partner k)
            { s.line (partner k) with asserted := b && !a }).setPair k
              { state := levelState a b, gap := f.at 2 }).answered p f .ok
              [(levelState a b).byte, f.at 2]))) ∧
      (f.at 1 = 0 →
        exec (.pairUnbind p) s = .next (((s.leased p).setPair k
          { s.pair k with state := .unbound }).answered p f .ok [0, (s.pair k).gap]))) ∧
  (∀ (p : StationNo) (s : State) (f : RequestFrame) (c : Instr), s.admits p f .pair →
      ((c = .pairBind p ∧ f.at 1 ≠ 0) ∨ (c = .pairUnbind p ∧ f.at 1 ≠ 1)) →
      let refused (outcome : ReplyCode) : Prop :=
        exec c s = .next ((s.leased p).answered p f outcome [])
      ((8 ≤ (f.at 0).toNat ∨ (f.at 1 ≠ 0 ∧ f.at 1 ≠ 1)) → refused .badValue) ∧
      ∀ k : PairNo, (f.at 0).toNat = k.val → (f.at 1 = 0 ∨ f.at 1 = 1) →
        let mine := (s.line (primary k)).holder = (s.line (partner k)).holder ∧
          s.holds p (primary k) = true
        let half := ∃ w ∈ s.waiting,
          named w.claim.lines (primary k) ≠ named w.claim.lines (partner k)
        let targeted := ∃ i o, s.order i = some o ∧ o.station = p ∧
          o.body.targets &&& (lineMask (primary k) ||| lineMask (partner k)) ≠ 0
        (¬mine → refused .paired) ∧
        (mine → f.at 1 = 1 → half → refused .paired) ∧
        (mine → ¬(f.at 1 = 1 ∧ half) → targeted → refused .inUse) ∧
        (mine → f.at 1 = 1 → ¬half → ¬targeted → (s.line (primary k)).safe = true →
          (s.line (partner k)).safe = true → refused .badValue))

/-! ### Claims -/

/-- R38 to R41, R18: a CLAIM whose lines are all free and named by no waiting claim is granted at once: HELD with a
new id, each of its lines takes the id, and drive turns ON at a line's first grant since power-on reset. One that
cannot be granted joins the waiting list with its deadline when it asks to wait and there is room. The checks refuse
it in their order, with the id 0 and the lines in the reply. -/
def Obligations.ClaimGrantedQueuedOrRefused : Prop :=
  (∀ (p : StationNo) (s : State) (f : RequestFrame), s.admits p f .claim →
      let m := f.half 0
      m ≠ 0 → (f.at 2 = 0 ∨ f.at 2 = 1) →
      (∀ k, s.pairBound k = true → named m (primary k) = named m (partner k)) →
      (∀ l, named m l = true → s.free l = true) → (∀ w ∈ s.waiting, w.claim.lines &&& m = 0) →
      ∃ t : State, exec (.claim p) s = .next t ∧
        t = ({ s.leased p with
          held := s.held ++ [(⟨s.nextClaimId, p, m, if f.at 2 = 1 then .safe else .hold⟩ : Claim)]
          claimCounter := s.nextClaimId
          lines := t.lines }).answered p f .ok (s.nextClaimId :: bytes16 m) ∧
        ∀ l, t.line l = if named m l then
            { s.line l with
              holder := some s.nextClaimId
              driveOn := if (s.line l).granted then (s.line l).driveOn else true
              granted := true }
          else s.line l) ∧
  (∀ (p : StationNo) (s : State) (f : RequestFrame), s.admits p f .claim →
      let m := f.half 0
      let refused (outcome : ReplyCode) : Prop :=
        exec (.claim p) s = .next ((s.leased p).answered p f outcome (0 :: bytes16 m))
      let good := m ≠ 0 ∧ (f.at 2 = 0 ∨ f.at 2 = 1)
      let whole := ∀ k, s.pairBound k = true → named m (primary k) = named m (partner k)
      let own := ∃ l, named m l = true ∧ s.holds p l = true
      let barred := (∃ l, named m l = true ∧ s.free l = false) ∨
        ∃ w ∈ s.waiting, w.claim.lines &&& m ≠ 0
      let full := 8 ≤ s.waiting.length ∨
        2 ≤ (s.waiting.filter (fun w => w.claim.station == p)).length
      (¬good → refused .badValue) ∧
      (good → ¬whole → refused .paired) ∧
      (good → whole → own → refused .overlap) ∧
      (good → whole → ¬own → barred → f.half 3 = 0 → refused .heldElsewhere) ∧
      (good → whole → ¬own → barred → f.half 3 ≠ 0 → full → refused .waitFull) ∧
      (good → whole → ¬own → barred → f.half 3 ≠ 0 → ¬full →
        exec (.claim p) s = .next (({ s.leased p with
          claimCounter := s.nextClaimId
          waiting := s.waiting ++
            [(⟨⟨s.nextClaimId, p, m, if f.at 2 = 1 then .safe else .hold⟩, f.half 3⟩ : WaitingClaim)] }).answered p f
          .queued (s.nextClaimId :: bytes16 m))))

/-- R37: the id a claim is given is the first that the counter reaches, stepping forward and passing over 0, that no
existing claim holds; there is one while the claims are fewer than 255. -/
def Obligations.ClaimIdIsFirstFree : Prop :=
  ∀ (s : State), s.claims.length < 255 →
    s.nextClaimId ≠ 0 ∧ (∀ c ∈ s.claims, c.id ≠ s.nextClaimId) ∧
      ∃ n, n < 255 ∧ s.nextClaimId = stepForward^[n + 1] s.claimCounter ∧
        ∀ j < n, ∃ c ∈ s.claims, c.id = stepForward^[j + 1] s.claimCounter

/-- R43, R44: what a grant scan does. Each claim of the waiting list is granted or keeps its place; no claim left on
the list can be granted; a granted claim found its lines free and its lines take its id; its station gets GRANTED,
in the order of the grants. Nothing else changes. And no claim overtakes an older one: where the waiting claims have
ids of their own, no claim left on the list that is older than a granted claim names a line of it. -/
def Obligations.GrantScanGrantsAllItCan : Prop :=
  ∀ (s : State), ∃ granted : List Claim,
    let t := s.grantScan
    t = { s with held := s.held ++ granted, waiting := t.waiting, lines := t.lines, ports := t.ports } ∧
    t.waiting.Sublist s.waiting ∧
    (granted ++ t.waiting.map (fun w => w.claim)).Perm (s.waiting.map (fun w => w.claim)) ∧
    (∀ older w younger, t.waiting = older ++ w :: younger → t.blocked older w) ∧
    (∀ c ∈ granted, ∀ l, named c.lines l = true → s.free l = true ∧
      t.line l = { s.line l with
        holder := some c.id
        driveOn := if (s.line l).granted then (s.line l).driveOn else true
        granted := true }) ∧
    (∀ l, (∀ c ∈ granted, named c.lines l = false) → t.line l = s.line l) ∧
    (∀ n, t.port n = s.portTold n
      ((granted.filter (fun c => c.station == n)).map (fun c => .granted c.id c.lines))) ∧
    ((s.waiting.map (fun w => w.claim.id)).Nodup →
      ∀ older w younger, s.waiting = older ++ w :: younger → w.claim ∈ granted →
        ∀ v ∈ older, v ∈ t.waiting → v.claim.lines &&& w.claim.lines = 0)

/-- R49, R30, R53, R57: the release of a HELD claim, in its four steps. The requester's orders on the claim's lines
are removed without notices; SAFE sets the lines to their safe levels and bound pairs to their safe states, HOLD
changes none; the lines become free and the claim leaves; then the grant scan runs. The reply counts the orders
removed. That the scan's notice to the requester itself is appended before the reply is placed is the model's
reading (assumption 6). -/
def Obligations.ReleaseGivesUpHeldClaim : Prop :=
  ∀ (p : StationNo) (s : State) (f : RequestFrame) (c : Claim), s.admits p f .release →
    (f.at 1 = 0 ∨ f.at 1 = 1) → c ∈ s.held → c.id = f.at 0 → c.station = p →
    (∀ x ∈ s.held, x.id = c.id → x = c) →
    let safely := f.at 1 == 1
    let q := onMask p c.lines
    ∃ u : State, exec (.release p) s = .next (u.grantScan.replied p f .ok
        [BitVec.ofNat 8 (s.countOrders q)]) ∧
      u = { ((s.dequeue p).leased p).without q with
        held := s.held.filter (fun x => x.id != c.id), lines := u.lines, pairs := u.pairs } ∧
      (∀ l, u.line l = { s.line l with
        holder := if named c.lines l then none else (s.line l).holder
        asserted :=
          if safely && (named c.lines l || s.pairTouched c.lines l) then (s.line l).safe
          else (s.line l).asserted }) ∧
      ∀ k, u.pair k = if safely && s.pairTouched c.lines (primary k) then
          { s.pair k with
            state := levelState (s.line (primary k)).safe (s.line (partner k)).safe }
        else s.pair k

/-- R45, R47, R48: RELEASE of a WAITING claim withdraws it and counts 0 orders; a bad action is BAD_VALUE and an id
that is no claim of the requester NOT_HOLDER. At WAIT_EXPIRY the waiting claims whose deadline stands at 0 leave
together, each sending WAIT_EXPIRED in the order of the list. The grant scan follows either; where no deadline
stands at 0, nothing changes. That deadlines stand at 0 until this command, that it is no event where none does, and
that the scan comes before the reply, are the model's (assumptions 9, 1 and 6). -/
def Obligations.WaitingClaimsLeave : Prop :=
  (∀ (p : StationNo) (s : State) (f : RequestFrame), s.admits p f .release →
      let holdsId := ∃ c ∈ s.held, c.id = f.at 0 ∧ c.station = p
      let waitsId := ∃ w ∈ s.waiting, w.claim.id = f.at 0 ∧ w.claim.station = p
      (f.at 1 ≠ 0 → f.at 1 ≠ 1 →
        exec (.release p) s = .next ((s.leased p).answered p f .badValue [])) ∧
      ((f.at 1 = 0 ∨ f.at 1 = 1) → ¬holdsId → ¬waitsId →
        exec (.release p) s = .next ((s.leased p).answered p f .notHolder [])) ∧
      ((f.at 1 = 0 ∨ f.at 1 = 1) → ¬holdsId → waitsId →
        exec (.release p) s = .next
          (({ (s.dequeue p).leased p with waiting := s.waiting.filter (fun w =>
              !(w.claim.id == f.at 0 && w.claim.station == p)) }).grantScan.replied p f .ok [0]))) ∧
  (∀ (s : State), s.atWork →
      ((∀ w ∈ s.waiting, w.deadline ≠ 0) → exec .waitExpiry s = .next s) ∧
      ((∃ w ∈ s.waiting, w.deadline = 0) →
        ∃ u : State, exec .waitExpiry s = .next u.grantScan ∧
          u = { s with waiting := s.waiting.filter (fun w => w.deadline != 0), ports := u.ports } ∧
          ∀ n, u.port n = s.portTold n
            (((s.waiting.filter (fun w => w.deadline == 0)).filter
                (fun w => w.claim.station == n)).map
              (fun w => .waitExpired w.claim.id w.claim.lines))))

/-! ### Posting -/

/-- R64 to R68, R70, R71: what a POST's form and body are where its checks pass: the kind, mode, late policy, notify
setting and action that the bytes name, and the kind's own fields with every value in its range for the horizon. And
the checks of POST in their order: a refused POST carries handle 0, 0 and edge time 0, and changes nothing but the
lease and the reply. -/
def Obligations.PostChecksInOrder : Prop :=
  (∀ (f : RequestFrame) (x : PostForm) (horizon : Nat) (b : OrderBody),
      f.postForm = some x → f.postBody x horizon = some b →
      (f.at 3 = 0 ∧ x.mode = .absolute ∨ f.at 3 = 1 ∧ x.mode = .relative ∨
        f.at 3 = 2 ∧ x.mode = .onCapture) ∧
      ((f.at 17).toNat / 16 = 0 ∧ x.late = .refuse ∨ (f.at 17).toNat / 16 = 1 ∧ x.late = .fire) ∧
      ((f.at 17).toNat % 16 = 0 ∧ x.notify = .none ∨ (f.at 17).toNat % 16 = 1 ∧ x.notify = .first ∨
        (f.at 17).toNat % 16 = 2 ∧ x.notify = .atEnd ∨ (f.at 17).toNat % 16 = 3 ∧ x.notify = .both) ∧
      match b with
      | .step l a => f.at 0 = 0 ∧ (f.at 1).toNat = l.val ∧
        (f.at 2 = 0 ∧ a = .assert ∨ f.at 2 = 1 ∧ a = .deassert ∨ f.at 2 = 2 ∧ a = .invert)
      | .pulse l w => f.at 0 = 1 ∧ (f.at 1).toNat = l.val ∧ w = f.span 9 ∧ 1 ≤ w.toNat ∧
        w.toNat ≤ horizon
      | .train l t => f.at 0 = 2 ∧ (f.at 1).toNat = l.val ∧
        t = { width := f.span 9, period := f.span 12
              remaining := if f.half 15 = 0 then none else some (f.half 15)
              pending := none, begun := false } ∧
        2 ≤ t.period.toNat ∧ t.period.toNat ≤ horizon ∧ t.width.toNat ≤ t.period.toNat
      | .pattern g m v => f.at 0 = 3 ∧ (f.at 1).toNat = g.val ∧ m.toNat = (f.at 2).toNat % 16 ∧
        v.toNat = (f.at 2).toNat / 16 ∧ m ≠ 0) ∧
  (∀ (p : StationNo) (s : State) (f : RequestFrame), s.admits p f .post →
      let refused (outcome : ReplyCode) : Prop :=
        exec (.post p) s = .next ((s.leased p).answered p f outcome [0, 0, 0, 0, 0, 0])
      let form := (f.at 0).toNat ≤ 3 ∧ (f.at 0 = 0 → (f.at 2).toNat ≤ 2) ∧ (f.at 3).toNat ≤ 2 ∧
        (f.at 17).toNat / 16 ≤ 1 ∧ (f.at 17).toNat % 16 ≤ 3
      let values := (f.at 1).toNat < (if f.at 0 = 3 then 4 else 16) ∧
        (f.at 0 = 1 → 1 ≤ (f.span 9).toNat ∧ (f.span 9).toNat ≤ 2 ^ s.tb.h) ∧
        (f.at 0 = 2 → 2 ≤ (f.span 12).toNat ∧ (f.span 12).toNat ≤ 2 ^ s.tb.h ∧
          (f.span 9).toNat ≤ (f.span 12).toNat) ∧
        (f.at 0 = 3 → (f.at 2).toNat % 16 ≠ 0) ∧
        (f.at 3 = 2 → (f.at 4).toNat < 8 ∧ 1 ≤ (f.time 5).toNat ∧ (f.time 5).toNat ≤ 65535)
      (s.running = false → refused .timebaseState) ∧
      (s.running = true → ¬form → refused .badFormat) ∧
      (s.running = true → form → ¬values → refused .badValue) ∧
      ∀ x b, s.running = true → f.postForm = some x → f.postBody x s.horizon = some b → values →
        let held := ∀ l, named b.targets l = true → s.holds p l = true
        let unpaired := ∀ k, s.pairBound k = true → named b.targets (partner k) = false
        let room := s.orderCount p < (s.station p).quota.toNat
        let due := if x.mode = .relative then s.tb.t + f.time 5 else f.time 5
        (¬held → refused .notHolder) ∧
        (held → ¬unpaired → refused .paired) ∧
        (held → unpaired → (s.group b.group).state = .tripped → refused .tripped) ∧
        (s.mayTarget p b → ¬room → refused .quota) ∧
        (s.mayTarget p b → room → x.mode = .onCapture →
          (∀ c : InputNo, (f.at 4).toNat = c.val → inSet (s.input c).subscribers p = false) →
          refused .noSubscription) ∧
        (s.mayTarget p b → room → x.mode ≠ .onCapture →
          2 ^ s.tb.h < (due - s.tb.t).toNat → (due - s.tb.t).toNat ≤ 2 ^ 31 →
          refused .beyondHorizon) ∧
        (s.mayTarget p b → room → x.mode ≠ .onCapture → x.late = .refuse → s.tb.h ≤ 30 →
          ((due - s.tb.t).toNat = 0 ∨ 2 ^ 31 < (due - s.tb.t).toNat) → refused .late))

/-- R67, R55, R56, R61, R71: an ABSOLUTE or RELATIVE POST whose due time is 1 to H ticks away is accepted. The order
takes the lowest-numbered free slot with its generation and the post sequence, becomes SCHEDULED for the due time,
and stands in the schedule list at its place. The reply carries the handle and the due time. -/
def Obligations.PostSchedulesOrder : Prop :=
  ∀ (p : StationNo) (s : State) (f : RequestFrame) (x : PostForm) (b : OrderBody) (i : SlotNo),
    s.admits p f .post → s.running = true → f.postForm = some x →
    f.postBody x s.horizon = some b → s.mayTarget p b → s.orderCount p < (s.station p).quota.toNat →
    s.lowestFreeIs i → s.unlisted i → x.mode ≠ .onCapture →
    let due := if x.mode = .relative then s.tb.t + f.time 5 else f.time 5
    1 ≤ (due - s.tb.t).toNat → (due - s.tb.t).toNat ≤ 2 ^ s.tb.h →
    let phase : Phase := match b with
      | .pulse _ _ => .leading
      | .train _ _ => .leading
      | _ => .absent
    let o := postedOrder p f x b none (.scheduled due phase) s.postSeq
    ∃ t : State, exec (.post p) s = .next t ∧
      t = ({ (s.leased p).setOrder i o with
        postSeq := s.postSeq + 1
        schedule := t.schedule }).answered p f .ok (s.handleBytes i ++ bytes32 due) ∧
      t.placed i o s.schedule t.schedule

/-- R70, R63, R71: an ON_CAPTURE POST of a station subscribed to the input is accepted: the order takes a slot and the
post sequence, becomes ARMED and joins the tail of its input's list. The reply carries the handle and edge time 0. -/
def Obligations.PostArmsOrder : Prop :=
  ∀ (p : StationNo) (s : State) (f : RequestFrame) (x : PostForm) (b : OrderBody) (i : SlotNo)
    (c : InputNo),
    s.admits p f .post → s.running = true → f.postForm = some x →
    f.postBody x s.horizon = some b → s.mayTarget p b → s.orderCount p < (s.station p).quota.toNat →
    s.lowestFreeIs i → x.mode = .onCapture → (f.at 4).toNat = c.val →
    1 ≤ (f.time 5).toNat → (f.time 5).toNat ≤ 65535 → inSet (s.input c).subscribers p = true →
    exec (.post p) s = .next
      (({ (s.leased p).setOrder i
          (postedOrder p f x b (some ⟨c, f.half 7⟩) .armed s.postSeq) with
          postSeq := s.postSeq + 1 }.setArmed c (s.armedOn c ++ [i])).answered p f .ok
        (s.handleBytes i ++ bytes32 0))

/-- R68, R69, R71: a late POST with policy FIRE. Where orders are due at T, they are fired first, and none is due
then. Where none is due, it takes a slot and a post sequence and is applied at once without FIRED: a STEP or PATTERN
gives its commands and is removed, so that its slot's generation moves on; a PULSE gives ASSERT and waits for its
trailing edge; a TRAIN makes a period start. The reply is OK_LATE with T. That its checks come before the firings is
the model's choice (assumption 26), that it makes the firings still undone its reading (assumption 8). -/
def Obligations.LatePostAppliesAtOnce : Prop :=
  (∀ (p : StationNo) (s : State) (f : RequestFrame) (x : PostForm) (b : OrderBody),
    s.admits p f .post → s.running = true → f.postForm = some x →
    f.postBody x s.horizon = some b → s.mayTarget p b → s.orderCount p < (s.station p).quota.toNat →
    x.mode ≠ .onCapture → x.late = .fire →
    let due := if x.mode = .relative then s.tb.t + f.time 5 else f.time 5
    ((due - s.tb.t).toNat = 0 ∨ 2 ^ 31 < (due - s.tb.t).toNat) → s.tb.h ≤ 30 →
    s.schedule.Nodup → (∀ i o, s.order i = some o → o.inRange s.horizon) → (∃ i, s.order i = none) →
    exec (.post p) s = exec (.post p) s.fireDue ∧ s.fireDue.noneDue ∧ s.fireDue.admits p f .post ∧
      s.fireDue.mayTarget p b ∧ s.fireDue.orderCount p < (s.station p).quota.toNat ∧
      s.fireDue.station p = s.station p ∧ s.fireDue.tb = s.tb) ∧
  ∀ (p : StationNo) (s : State) (f : RequestFrame) (x : PostForm) (b : OrderBody) (i : SlotNo),
    s.admits p f .post → s.running = true → f.postForm = some x →
    f.postBody x s.horizon = some b → s.mayTarget p b → s.orderCount p < (s.station p).quota.toNat →
    s.lowestFreeIs i → s.unlisted i → s.noneDue → x.mode ≠ .onCapture → x.late = .fire →
    let due := if x.mode = .relative then s.tb.t + f.time 5 else f.time 5
    ((due - s.tb.t).toNat = 0 ∨ 2 ^ 31 < (due - s.tb.t).toNat) → s.tb.h ≤ 30 →
    let taken : State := { s.leased p with postSeq := s.postSeq + 1 }
    let gone : Vector Slot 128 := s.slots.set i ⟨(s.slot i).generation + 1, none⟩
    let reply := s.handleBytes i ++ bytes32 s.tb.t
    match b with
    | .step l a =>
      let v := s.command l (match a with | .assert => .assert | .deassert => .deassert | .invert => .invert)
      exec (.post p) s = .next
        (({ taken with slots := gone, lines := v.lines, pairs := v.pairs }).answered p f .okLate reply)
    | .pattern g m levels =>
      let v := ([0, 1, 2, 3] : List (Fin 4)).foldl (fun u j =>
        if m.getLsbD j.val then u.command (groupLine g j) (.level (levels.getLsbD j.val)) else u) s
      exec (.post p) s = .next
        (({ taken with slots := gone, lines := v.lines, pairs := v.pairs }).answered p f .okLate reply)
    | .pulse l w =>
      let v := s.command l .assert
      let o := { postedOrder p f x b none (.scheduled (s.tb.t + w.setWidth 32) .trailing) s.postSeq with
        started := true }
      ∃ t : State, exec (.post p) s = .next t ∧
        t = ({ taken.setOrder i o with
          lines := v.lines, pairs := v.pairs, schedule := t.schedule }).answered p f .okLate reply ∧
        t.placed i o s.schedule t.schedule
    | .train l y =>
      let v := s.command l (if y.width = 0 then .deassert else .assert)
      let next : OrderState :=
        if y.width = 0 ∨ y.width = y.period then .scheduled (s.tb.t + y.period.setWidth 32) .leading
        else .scheduled (s.tb.t + y.width.setWidth 32) .trailing
      let o := { postedOrder p f x (.train l { y with begun := true }) none next s.postSeq with
        started := true }
      ∃ t : State, exec (.post p) s = .next t ∧
        t = ({ taken.setOrder i o with
          lines := v.lines, pairs := v.pairs, schedule := t.schedule }).answered p f .okLate reply ∧
        t.placed i o s.schedule t.schedule

/-- R57, R62: a placing in the schedule list takes the order's slot from its old place and puts it behind every
order that it does not stand before. A removal frees the slot and advances its generation, and takes the slot out of
the schedule list and out of every armed list. Neither changes anything else. -/
def Obligations.PlacingAndRemoval : Prop :=
  (∀ (s : State) (i : SlotNo) (o : Order),
      ∃ t : State, s.placeOrder i o = t ∧
        t = { s.setOrder i o with schedule := t.schedule } ∧
        t.placed i o (s.schedule.filter (fun j => j != i)) t.schedule) ∧
  (∀ (s : State) (i : SlotNo),
      let t := s.removeOrder i
      t = { s with slots := t.slots, schedule := t.schedule, armed := t.armed } ∧
      t.slot i = ⟨(s.slot i).generation + 1, none⟩ ∧ (∀ j, j ≠ i → t.slot j = s.slot j) ∧
      t.schedule = s.schedule.filter (fun j => j != i) ∧
      ∀ c, t.armedOn c = (s.armedOn c).filter (fun j => j != i))

/-! ### Orders -/

/-- R92, R96 to R98, R56, Table 10-5: CANCEL of a live order of the requester. Under NOW, mode 00h, the order is
removed, and its line first gets DEASSERT where the order is in its asserted part. Under AT_END, mode 01h, a SCHEDULED
PULSE or TRAIN stands with ending yes, and any other order is removed. The reply carries the disposition and T. A bad
slot or mode is BAD_VALUE and a handle of no live order of the requester UNKNOWN_ORDER, which change nothing but the
lease and the reply. That either row takes a frame whose mode names neither is the model's reading (assumption 5). -/
def Obligations.CancelRemovesOrEnds : Prop :=
  (∀ (p : StationNo) (s : State) (f : RequestFrame) (i : SlotNo) (o : Order), s.admits p f .cancel →
      (f.at 0).toNat = i.val → s.order i = some o → o.station = p → (s.slot i).generation = f.at 1 →
      let asserted (l : LineNo) : Prop :=
        (∃ e w, o.state = .scheduled e .trailing ∧ o.body = .pulse l w) ∨
        (∃ e x, o.state = .scheduled e .trailing ∧ o.body = .train l x) ∨
        ∃ e x, o.state = .scheduled e .leading ∧ o.body = .train l x ∧ x.begun = true ∧
          x.width = x.period
      let ends := (∃ e ph l w, o.state = .scheduled e ph ∧ o.body = .pulse l w) ∨
        ∃ e ph l x, o.state = .scheduled e ph ∧ o.body = .train l x
      (f.at 2 = 0 →
        (∀ l, asserted l → exec (.cancelNow p) s = .next
          (({ (s.leased p).removeOrder i with
            lines := (s.command l .deassert).lines
            pairs := (s.command l .deassert).pairs }).answered p f .ok (0 :: bytes32 s.tb.t))) ∧
        ((∀ l, ¬asserted l) → exec (.cancelNow p) s = .next
          (((s.leased p).removeOrder i).answered p f .ok (0 :: bytes32 s.tb.t)))) ∧
      (f.at 2 = 1 →
        (ends → exec (.cancelAtEnd p) s = .next
          (((s.leased p).setOrder i { o with ending := true }).answered p f .ok
            (1 :: bytes32 s.tb.t))) ∧
        (¬ends → exec (.cancelAtEnd p) s = .next
          (((s.leased p).removeOrder i).answered p f .ok (0 :: bytes32 s.tb.t))))) ∧
  (∀ (p : StationNo) (s : State) (f : RequestFrame) (c : Instr), s.admits p f .cancel →
      ((c = .cancelNow p ∧ f.at 2 ≠ 1) ∨ (c = .cancelAtEnd p ∧ f.at 2 ≠ 0)) →
      ((128 ≤ (f.at 0).toNat ∨ (f.at 2 ≠ 0 ∧ f.at 2 ≠ 1)) →
        exec c s = .next ((s.leased p).answered p f .badValue [])) ∧
      ∀ i : SlotNo, (f.at 0).toNat = i.val → (f.at 2 = 0 ∨ f.at 2 = 1) →
        (∀ o, s.order i = some o → ¬((s.slot i).generation = f.at 1 ∧ o.station = p)) →
        exec c s = .next ((s.leased p).answered p f .unknownOrder []))

/-- R93, R94: REVISE of a live TRAIN of the requester stages its values as the pending revision while the train is
SCHEDULED, and writes them at once while it is ARMED. The checks refuse it in their order. -/
def Obligations.ReviseStagesOrApplies : Prop :=
  ∀ (p : StationNo) (s : State) (f : RequestFrame), s.admits p f .revise →
    let refused (outcome : ReplyCode) : Prop :=
      exec (.revise p) s = .next ((s.leased p).answered p f outcome [])
    let good := 2 ≤ (f.span 5).toNat ∧ (f.span 5).toNat ≤ 2 ^ s.tb.h ∧
      (f.span 2).toNat ≤ (f.span 5).toNat
    (128 ≤ (f.at 0).toNat → refused .badValue) ∧
    ∀ i : SlotNo, (f.at 0).toNat = i.val →
      ((∀ o, s.order i = some o → ¬((s.slot i).generation = f.at 1 ∧ o.station = p)) →
        refused .unknownOrder) ∧
      ∀ o, s.order i = some o → (s.slot i).generation = f.at 1 → o.station = p →
        ((∀ l x, o.body ≠ .train l x) → refused .notPeriodic) ∧
        ∀ l x, o.body = .train l x →
          (o.ending = true → refused .ending) ∧
          (o.ending = false → ¬good → refused .badValue) ∧
          (o.ending = false → good → ∀ e ph, o.state = .scheduled e ph →
            exec (.revise p) s = .next (((s.leased p).setOrder i
              { o with body := .train l { x with pending := some ⟨f.span 2, f.span 5⟩ } }).answered p
              f .ok [0])) ∧
          (o.ending = false → good → o.state = .armed →
            exec (.revise p) s = .next (((s.leased p).setOrder i
              { o with
                body := .train l { x with width := f.span 2, period := f.span 5, pending := none }
              }).answered p f .ok [1]))

/-- R100: FLUSH cancels every order of the requester that targets a line of the mask, oldest first, each as CANCEL
NOW does; the reply counts them. An empty mask is BAD_VALUE and a line not held NOT_HOLDER. That the oldest is the
one of the greatest age is the model's reading (assumption 21). -/
def Obligations.FlushCancelsOldestFirst : Prop :=
  ∀ (p : StationNo) (s : State) (f : RequestFrame), s.admits p f .flush →
    let q := onMask p (f.half 0)
    (f.half 0 = 0 → exec (.flush p) s = .next ((s.leased p).answered p f .badValue [])) ∧
    (f.half 0 ≠ 0 → (∃ l, named (f.half 0) l = true ∧ s.holds p l = false) →
      exec (.flush p) s = .next ((s.leased p).answered p f .notHolder [])) ∧
    (f.half 0 ≠ 0 → (∀ l, named (f.half 0) l = true → s.holds p l = true) →
      ∃ slots : List SlotNo,
        slots.Perm ((List.finRange 128).filter (s.orderIs q)) ∧
        slots.Pairwise (fun i j => ∀ a b, s.order i = some a → s.order j = some b →
          (s.postSeq - b.postSeq).toNat ≤ (s.postSeq - a.postSeq).toNat) ∧
        ∃ t : State, exec (.flush p) s = .next t ∧
          t = (slots.foldl State.cancelOrder ((s.dequeue p).leased p)).replied p f .ok
            [BitVec.ofNat 8 (s.countOrders q)] ∧
          ∀ i, t.order i = if s.orderIs q i then none else s.order i)

/-- R79: ORDER_READ changes nothing (but the lease and the reply) and reports the quota, the order count and the
entries of the first 3 of the requester's orders at or above the starting slot, laid out by Table 10-9. A slot above
127 is BAD_VALUE. -/
def Obligations.OrderReadReports : Prop :=
  ∀ (p : StationNo) (s : State) (f : RequestFrame), s.admits p f .orderRead →
    let entry (i : SlotNo) : List Byte :=
      match s.order i with
      | none => []
      | some o =>
        s.handleBytes i ++
        [match o.body with | .step _ _ => 0 | .pulse _ _ => 1 | .train _ _ => 2 | .pattern _ _ _ => 3,
         match o.body with
         | .step l _ => BitVec.ofNat 8 l.val
         | .pulse l _ => BitVec.ofNat 8 l.val
         | .train l _ => BitVec.ofNat 8 l.val
         | .pattern g _ _ => BitVec.ofNat 8 g.val,
         BitVec.ofNat 8 ((match o.state, o.trigger with | .armed, some c => 16 * c.input.val | _, _ => 0) +
           (match o.body with | .pattern _ m _ => m.toNat | _ => 0))] ++
        bytes32 (match o.state with | .armed => 0 | .scheduled e _ => e) ++
        bytes16 (match o.body with | .train _ x => x.remaining.getD 0 | _ => 0) ++
        [BitVec.ofNat 8 ((match o.state with
            | .armed => 0
            | .scheduled _ .absent => 128
            | .scheduled _ .leading => 128 + 16
            | .scheduled _ .trailing => 128 + 32) +
          (if o.ending then 2 else 0) +
          (match o.body with | .train _ x => if x.pending.isSome then 1 else 0 | _ => 0))] ++
        bytes16 o.tag
    (128 ≤ (f.at 0).toNat →
      exec (.orderRead p) s = .next ((s.leased p).answered p f .badValue [])) ∧
    ((f.at 0).toNat < 128 →
      exec (.orderRead p) s = .next ((s.leased p).answered p f .ok
        ([(s.station p).quota, BitVec.ofNat 8 (s.countOrders (fun o => o.station == p))] ++
          (((List.finRange 128).filter (fun i =>
            s.orderIs (fun o => o.station == p) i && decide ((f.at 0).toNat ≤ i.val))).take 3).flatMap
              entry)))

/-! ### Firing -/

/-- R73: the orders due at T are fired one by one, in list order. The first of them makes its edge; it is not due
again; and the firing goes on with the rest as the list has them, until none is due; State.fireDue is the state that
it leaves. Where none is due, or the timebase is not RUNNING, nothing changes. The last is the model's choice
(assumption 1). -/
def Obligations.FiringGoesInListOrder : Prop :=
  ∀ (s : State), s.atWork → s.schedule.Nodup →
    (∀ i o, s.order i = some o → o.inRange s.horizon) → s.tb.h ≤ 30 →
    ((s.running = false ∨ s.dueSlots = []) → exec .firing s = .next s) ∧
    (s.running = true → exec .firing s = .next s.fireDue ∧ s.fireDue.noneDue) ∧
    ∀ i rest o, s.running = true → s.dueSlots = i :: rest → s.order i = some o →
      (s.fireEdge .due i o).dueSlots = rest ∧
      exec .firing s = exec .firing (s.fireEdge .due i o)

/-- R74, R76, R77: the one edge of a STEP or a PATTERN in a NORMAL group. Its command, or one command for each line
of its mask, is made; the order is removed; FIRED follows where notify asks for it. That the commands of a PATTERN
are made in ascending line order is the model's reading (assumption 24). -/
def Obligations.FiringStepOrPattern : Prop :=
  ∀ (s : State) (i : SlotNo) (o : Order), s.onlyDue i o → (s.group o.body.group).state = .normal →
    let h : Handle := ⟨i, (s.slot i).generation⟩
    (∀ l a, o.body = .step l a →
      let c : LineCommand := match a with
        | .assert => .assert
        | .deassert => .deassert
        | .invert => .invert
      exec .firing s = .next (((s.dueCommand l c).removeOrder i).toldFired h o s.tb.t)) ∧
    ∀ g m levels, o.body = .pattern g m levels →
      let v := ([0, 1, 2, 3] : List (Fin 4)).foldl (fun u j =>
        if m.getLsbD j.val then u.dueCommand (groupLine g j) (.level (levels.getLsbD j.val)) else u) s
      exec .firing s = .next ((v.removeOrder i).toldFired h o s.tb.t)

/-- R75, R77, R78: the two edges of a PULSE in a NORMAL group. The leading edge gives ASSERT, and the order waits for
its trailing edge, width ticks ahead; FIRED follows where it is due. The trailing edge gives DEASSERT and removes the
order; ENDED follows, CANCELLED where ending is yes and COMPLETE otherwise. -/
def Obligations.FiringPulse : Prop :=
  ∀ (s : State) (i : SlotNo) (o : Order) (l : LineNo) (w : Span) (e : Time),
    s.onlyDue i o → (s.group (groupOf l)).state = .normal → o.body = .pulse l w →
    let h : Handle := ⟨i, (s.slot i).generation⟩
    (o.state = .scheduled e .leading → exec .firing s = .next
      (((s.dueCommand l .assert).placeOrder i
        { o with state := .scheduled (s.tb.t + w.setWidth 32) .trailing, started := true }).toldFired
        h o s.tb.t)) ∧
    (o.state = .scheduled e .trailing → exec .firing s = .next
      (((s.dueCommand l .deassert).removeOrder i).toldEnded h o
        (if o.ending then .cancelled else .complete) s.tb.t))

/-- R85 to R91: the edges of a TRAIN in a NORMAL group. A period start counts, takes a pending revision, ends if
ending is yes, and by the width in force gives its command and sets the next edge; an exhausted or ending train
gives DEASSERT and is removed with ENDED; a trailing edge gives DEASSERT and waits for the next period start. That a
remaining count of 0, which no run reaches, counts as exhausted is the model's choice (assumption 19). -/
def Obligations.FiringTrain : Prop :=
  ∀ (s : State) (i : SlotNo) (o : Order) (l : LineNo) (x : TrainRec) (e : Time),
    s.onlyDue i o → (s.group (groupOf l)).state = .normal → o.body = .train l x →
    let h : Handle := ⟨i, (s.slot i).generation⟩
    let exhausted := x.begun = true ∧ ∃ n, x.remaining = some n ∧ n.toNat ≤ 1
    let width := match x.pending with | some r => r.width | none => x.width
    let period := match x.pending with | some r => r.period | none => x.period
    let x' : TrainRec :=
      { width := width, period := period
        remaining := if x.begun then x.remaining.map (fun n => n - 1) else x.remaining
        pending := none, begun := true }
    let ended := (s.dueCommand l .deassert).removeOrder i
    (o.state = .scheduled e .leading →
      (exhausted → exec .firing s = .next (ended.toldEnded h o .complete s.tb.t)) ∧
      (¬exhausted → o.ending = true →
        exec .firing s = .next (ended.toldEnded h o .cancelled s.tb.t)) ∧
      (¬exhausted → o.ending = false → exec .firing s = .next
        (((s.dueCommand l (if width = 0 then .deassert else .assert)).placeOrder i
          { o with
            body := .train l x'
            started := true
            state :=
              if width = 0 ∨ width = period then .scheduled (s.tb.t + period.setWidth 32) .leading
              else .scheduled (s.tb.t + width.setWidth 32) .trailing }).toldFired h o s.tb.t))) ∧
    (o.state = .scheduled e .trailing → exec .firing s = .next
      ((s.dueCommand l .deassert).placeOrder i
        { o with state :=
            .scheduled (s.tb.t + (x.period.setWidth 32 - x.width.setWidth 32)) .leading }))

/-- R108, R109: edges that meet a TRIPPED group, where no gap runs in the group. No line changes. A STEP, PULSE or
PATTERN is removed and SUPPRESSED is sent whatever its notify setting. A TRAIN keeps its cadence without FIRED, and
one that is exhausted or ends is removed with ENDED SUPPRESSED. The remaining count 0 is as in FiringTrain
(assumption 19). -/
def Obligations.FiringInTrippedGroup : Prop :=
  ∀ (s : State) (i : SlotNo) (o : Order) (e : Time) (ph : Phase), s.onlyDue i o →
    o.state = .scheduled e ph → (s.group o.body.group).state = .tripped →
    (∀ k, groupOfPair k = o.body.group → (s.pair k).state.inGap = false) →
    let h : Handle := ⟨i, (s.slot i).generation⟩
    ((∀ l x, o.body ≠ .train l x) →
      exec .firing s = .next ((s.removeOrder i).told o.station (.suppressed h o.tag s.tb.t))) ∧
    ∀ l x, o.body = .train l x →
      let width := match x.pending with | some r => r.width | none => x.width
      let period := match x.pending with | some r => r.period | none => x.period
      let finished := (x.begun = true ∧ ∃ n, x.remaining = some n ∧ n.toNat ≤ 1) ∨ o.ending = true
      (ph = .leading → finished → exec .firing s = .next
        ((s.removeOrder i).told o.station (.ended h o.tag .suppressed s.tb.t))) ∧
      (ph = .leading → ¬finished → exec .firing s = .next (s.placeOrder i
        { o with
          body := .train l
            { width := width, period := period
              remaining := if x.begun then x.remaining.map (fun n => n - 1) else x.remaining
              pending := none, begun := true }
          state :=
            if width = 0 ∨ width = period then .scheduled (s.tb.t + period.setWidth 32) .leading
            else .scheduled (s.tb.t + width.setWidth 32) .trailing })) ∧
      (ph = .trailing → exec .firing s = .next (s.placeOrder i
        { o with state :=
            .scheduled (s.tb.t + (x.period.setWidth 32 - x.width.setWidth 32)) .leading }))

/-! ### Guards -/

/-- R103, R104, R106: GUARD_MAP of a group whose lines are all free writes the map. A NORMAL group whose new map
names an ACTIVE input trips at once, without notices; any other keeps its state. The reply carries the state and the
map. A group with a held line refuses it IN_USE, and a value out of range is BAD_VALUE. -/
def Obligations.GuardMapWritesMap : Prop :=
  ∀ (p : StationNo) (s : State) (f : RequestFrame), s.admits p f .guardMap →
    ((4 ≤ (f.at 0).toNat ∨ 4 ≤ (f.at 1).toNat) →
      exec (.guardMap p) s = .next ((s.leased p).answered p f .badValue [])) ∧
    ∀ g : GroupNo, (f.at 0).toNat = g.val → (f.at 1).toNat < 4 →
      let m : GuardMap :=
        if f.at 1 = 0 then .none else if f.at 1 = 1 then .ga else if f.at 1 = 2 then .gb else .either
      let active := (s.guardA = true ∧ (m = .ga ∨ m = .either)) ∨
        (s.guardB = true ∧ (m = .gb ∨ m = .either))
      ((∃ l, groupOf l = g ∧ s.free l = false) →
        exec (.guardMap p) s = .next ((s.leased p).answered p f .inUse [])) ∧
      ((∀ l, groupOf l = g → s.free l = true) →
        (((s.group g).state = .tripped ∨ ¬active) → exec (.guardMap p) s = .next
          (((s.leased p).setGroup g { s.group g with map := m }).answered p f .ok
            [(match (s.group g).state with | .normal => 0 | .tripped => 1 : Byte), f.at 1])) ∧
        ((s.group g).state = .normal → active →
          ∃ t : State, exec (.guardMap p) s = .next t ∧
            t = ({ (s.leased p).setGroup g ⟨.tripped, m⟩ with
              lines := t.lines, pairs := t.pairs }).answered p f .ok [1, f.at 1] ∧
            (∀ l, t.line l = if groupOf l = g then { s.line l with asserted := (s.line l).safe }
              else s.line l) ∧
            ∀ k, t.pair k = if groupOfPair k = g ∧ s.pairBound k = true then
                { s.pair k with
                  state := levelState (s.line (primary k)).safe (s.line (partner k)).safe }
              else s.pair k))

/-- R111, R112: REARM of a TRIPPED group, by a station that holds a line of it while no input its map names is ACTIVE,
makes it NORMAL: no line and no pair changes, and every other holder gets TRIP_CLEARED. On a NORMAL group it changes
nothing. The other checks refuse it in their order. -/
def Obligations.RearmReturnsGroupToNormal : Prop :=
  ∀ (p : StationNo) (s : State) (f : RequestFrame), s.admits p f .rearm →
    (4 ≤ (f.at 0).toNat → exec (.rearm p) s = .next ((s.leased p).answered p f .badValue [])) ∧
    ∀ g : GroupNo, (f.at 0).toNat = g.val →
      let holder (n : StationNo) : Prop := ∃ l, groupOf l = g ∧ s.holds n l = true
      let active := (s.guardA = true ∧ ((s.group g).map = .ga ∨ (s.group g).map = .either)) ∨
        (s.guardB = true ∧ ((s.group g).map = .gb ∨ (s.group g).map = .either))
      (¬holder p → exec (.rearm p) s = .next ((s.leased p).answered p f .notHolder [])) ∧
      (holder p → (s.group g).state = .normal →
        exec (.rearm p) s = .next ((s.leased p).answered p f .ok [0])) ∧
      (holder p → (s.group g).state = .tripped → active →
        exec (.rearm p) s = .next ((s.leased p).answered p f .guardActive [])) ∧
      (holder p → (s.group g).state = .tripped → ¬active →
        ∃ t : State, exec (.rearm p) s = .next t ∧
          t = { (s.leased p).setGroup g { s.group g with state := .normal } with ports := t.ports } ∧
          t.port p = (s.port p).answered f .ok [0] ∧
          ∀ n, n ≠ p →
            (holder n → t.port n = s.portTold n [.tripCleared g]) ∧ (¬holder n → t.port n = s.port n))

/-- R102, R105, R106, R107: an activation makes its input ACTIVE and trips every NORMAL group whose map names it: the
group's lines go to their safe levels and its bound pairs to their safe states, and every station that holds a line of
it gets TRIP. The order of the notices of several groups is open: the statement holds for every order. A
deactivation makes the input INACTIVE and changes nothing else. That an activation of an input that is ACTIVE already
is no event and changes nothing is the model's choice (assumption 1). -/
def Obligations.GuardActivationTripsGroups : Prop :=
  ∀ (x : GuardInput) (s : State), s.atWork →
    let mapped (g : GroupNo) : Bool :=
      (s.group g).state == .normal && ((s.group g).map == .either ||
        (s.group g).map == (match x with | .ga => GuardMap.ga | .gb => GuardMap.gb))
    let holder (n : StationNo) (g : GroupNo) : Bool :=
      (List.finRange 16).any (fun l => groupOf l == g && s.holds n l)
    (s.guardActive x = false →
      ∃ (t : State) (trips : List GroupNo), exec (.guardActivation x) s = .next t ∧
        trips.Perm ((List.finRange 4).filter mapped) ∧
        t = { s.setGuard x true with
          groups := t.groups, lines := t.lines, pairs := t.pairs, ports := t.ports
          freeChoices := t.freeChoices } ∧
        (∀ g, t.group g =
          if mapped g then { s.group g with state := .tripped } else s.group g) ∧
        (∀ l, t.line l =
          if mapped (groupOf l) then { s.line l with asserted := (s.line l).safe } else s.line l) ∧
        (∀ k, t.pair k = if mapped (groupOfPair k) && s.pairBound k then
            { s.pair k with
              state := levelState (s.line (primary k)).safe (s.line (partner k)).safe }
          else s.pair k) ∧
        ∀ n, t.port n = s.portTold n ((trips.filter (holder n)).map (fun g => .trip g x))) ∧
    (s.guardActive x = true → exec (.guardActivation x) s = .next s) ∧
    exec (.guardDeactivation x) s = .next (s.setGuard x false)

/-! ### Capture -/

/-- R119, R114: SUBSCRIBE on an input without subscribers writes the settings and makes it WATCHING with reference
level none; on one with subscribers, settings equal to those in force add the requester and change nothing else, and
any others are CONFLICT with the settings in force. A value out of range is BAD_VALUE. -/
def Obligations.SubscribeJoinsInput : Prop :=
  ∀ (p : StationNo) (s : State) (f : RequestFrame), s.admits p f .subscribe →
    ((8 ≤ (f.at 0).toNat ∨ 3 ≤ (f.at 1).toNat) →
      exec (.subscribe p) s = .next ((s.leased p).answered p f .badValue [])) ∧
    ∀ c : InputNo, (f.at 0).toNat = c.val → (f.at 1).toNat < 3 →
      let x : InputSettings :=
        ⟨if f.at 1 = 0 then .rising else if f.at 1 = 1 then .falling else .both, f.at 2⟩
      let r := s.input c
      (r.subscribers = 0 →
        exec (.subscribe p) s = .next (((s.leased p).setInput c
          { settings := some x, subscribers := 1 <<< p.val, state := .watching none }).answered p f
          .ok [f.at 1, f.at 2, 1])) ∧
      (r.subscribers ≠ 0 → r.settings = some x →
        exec (.subscribe p) s = .next (((s.leased p).setInput c
          { r with subscribers := r.subscribers ||| 1 <<< p.val }).answered p f .ok
          [f.at 1, f.at 2, 0])) ∧
      ∀ y, r.subscribers ≠ 0 → r.settings = some y → y ≠ x →
        exec (.subscribe p) s = .next ((s.leased p).answered p f .conflict
          [match y.edges with | .rising => 0 | .falling => 1 | .both => 2, y.filter, 0])

/-- R120, R114, R125: UNSUBSCRIBE removes the requester's ARMED orders on the input, takes it out of the reader sets
of the input's records and out of the subscribers, and records with an empty reader set leave the head of the
journal; with the last subscriber the input becomes IDLE. The reply counts the orders removed. -/
def Obligations.UnsubscribeLeavesInput : Prop :=
  ∀ (p : StationNo) (s : State) (f : RequestFrame), s.admits p f .unsubscribe →
    (8 ≤ (f.at 0).toNat →
      exec (.unsubscribe p) s = .next ((s.leased p).answered p f .badValue [])) ∧
    ∀ c : InputNo, (f.at 0).toNat = c.val →
      let r := s.input c
      let q (o : Order) : Bool := o.station == p && o.state == .armed &&
        (match o.trigger with | some y => y.input == c | none => false)
      (inSet r.subscribers p = false →
        exec (.unsubscribe p) s = .next ((s.leased p).answered p f .noSubscription [])) ∧
      (inSet r.subscribers p = true →
        exec (.unsubscribe p) s = .next (({ ((s.leased p).without q).setInput c
            (if dropStation r.subscribers p = 0 then { settings := none, subscribers := 0, state := .idle }
             else { r with subscribers := dropStation r.subscribers p }) with
          journal := (s.journal.map (fun (y : JournalRec) =>
            if y.input = c then { y with readers := dropStation y.readers p } else y)).dropWhile
              (fun (y : JournalRec) => y.readers == 0) }).answered p f .ok [BitVec.ofNat 8 (s.countOrders q)]))

/-- R127, R125: READ_CAPTURES of up to k records, k from 1 to 6. The reply carries the records taken, oldest first, the
unread count after them and the lost count, which is then 0. The requester leaves the reader sets of the records taken
and of no other; every other station has what it had to read. A k out of range is BAD_VALUE. -/
def Obligations.ReadCapturesTakesOldest : Prop :=
  ∀ (p : StationNo) (s : State) (f : RequestFrame), s.admits p f .readCaptures →
    let k := (f.at 0).toNat
    let mine := s.journal.filter (fun r => inSet r.readers p)
    let facts (r : JournalRec) := (r.seq, r.input, r.direction, r.edgeTime)
    let entry (r : JournalRec) : List Byte :=
      bytes16 r.seq ++ [BitVec.ofNat 8 ((match r.direction with | .rising => 0 | .falling => 128) +
        r.input.val)] ++ bytes32 r.edgeTime
    ((k = 0 ∨ 6 < k) → exec (.readCaptures p) s = .next ((s.leased p).answered p f .badValue [])) ∧
    (1 ≤ k → k ≤ 6 →
      ∃ t : State, exec (.readCaptures p) s = .next t ∧
        t = ({ s.leased p with journal := t.journal, journalLost := s.journalLost.set p 0 }).answered p
          f .ok ((mine.take k).flatMap entry ++
            [BitVec.ofNat 8 (mine.length - (mine.take k).length), s.lostOf p]) ∧
        ((t.journal.filter (fun r => inSet r.readers p)).map facts = (mine.drop k).map facts) ∧
        (∀ n, n ≠ p → (t.journal.filter (fun r => inSet r.readers n)).map facts =
          (s.journal.filter (fun r => inSet r.readers n)).map facts) ∧
        (∀ r, t.journal.head? = some r → r.readers ≠ 0) ∧
        (t.journal.map facts).IsSuffix (s.journal.map facts))

/-- R115, R116, R117: samples that accept no edge. Nothing is sampled outside RUNNING or on an IDLE input. A first
sample sets the reference level; a level equal to it changes nothing; an unselected transition moves it; a selected
one with a filter begins FILTERING with the prior level kept; and in FILTERING the prior level drops the edge, at
the close too. That a sample command where nothing is sampled changes nothing is the model's choice (assumption 1);
that CAPTURE_EDGE carries any sample, the first and the one at the closing tick included, is the model's reading
(assumption 18). -/
def Obligations.SamplesThatAcceptNothing : Prop :=
  ∀ (c : InputNo) (level : Level) (s : State), s.atWork →
    let r := s.input c
    let now (x : InputState) := s.setInput c { r with state := x }
    let selected (x : InputSettings) : Prop :=
      x.edges = .both ∨ (x.edges = .rising ∧ level = .high) ∨ (x.edges = .falling ∧ level = .low)
    ((s.running = false ∨ r.state = .idle) →
      exec (.captureEdge c level) s = .next s ∧ exec (.filterClose c level) s = .next s) ∧
    (s.running = true → r.state = .watching none →
      exec (.captureEdge c level) s = .next (now (.watching (some level)))) ∧
    (s.running = true → ∀ reference, r.state = .watching (some reference) → ∀ x, r.settings = some x →
      (level = reference → exec (.captureEdge c level) s = .next s) ∧
      (level ≠ reference → ¬selected x →
        exec (.captureEdge c level) s = .next (now (.watching (some level)))) ∧
      (level ≠ reference → selected x → x.filter ≠ 0 →
        exec (.captureEdge c level) s = .next (now (.filtering reference
          ⟨match level with | .high => .rising | .low => .falling, s.tb.t, level⟩))) ∧
      exec (.filterClose c level) s = .next s) ∧
    (s.running = true → ∀ prior e, r.state = .filtering prior e → ∀ x, r.settings = some x →
      (e.edgeTime + x.filter.setWidth 32 ≠ s.tb.t →
        (level = prior → exec (.captureEdge c level) s = .next (now (.watching (some prior)))) ∧
        (level ≠ prior → exec (.captureEdge c level) s = .next s) ∧
        exec (.filterClose c level) s = .next s) ∧
      (e.edgeTime + x.filter.setWidth 32 = s.tb.t → level ≠ e.newLevel →
        exec (.captureEdge c level) s = .next (now (.watching (some prior))) ∧
        exec (.filterClose c level) s = .next (now (.watching (some prior)))))

/-- R122 to R126, R116, R117: the acceptance of an edge on an input with no armed order: a selected transition
without a filter, or the close of a filter at the new level, with the edge time of its recognising sample. A journal
of 64 loses its head, which counts as lost against each of its readers; the record joins the tail with the counter's
value and the input's subscribers; and each of these with nothing left unread before it gets CAPTURE_READY. That
CAPTURE_EDGE at the closing tick closes the filter as FILTER_CLOSE does is the model's reading (assumption 18). -/
def Obligations.AcceptedEdgeIsJournalled : Prop :=
  ∀ (cmd : Instr) (c : InputNo) (level : Level) (d : Direction) (e : Time) (s : State),
    s.acceptsEdge cmd c level d e → s.armedOn c = [] →
    let r := s.input c
    let full := 64 ≤ s.journal.length
    let kept := if full then s.journal.tail.dropWhile (fun y => y.readers == 0) else s.journal
    let losers : StationSet := if full then ((s.journal.head?.map (fun y => y.readers)).getD 0) else 0
    ∃ t : State, exec cmd s = .next t ∧
      t = { s.setInput c { r with state := .watching (some level) } with
        journal := kept ++ [⟨s.captureSeq, c, d, e, r.subscribers⟩]
        captureSeq := s.captureSeq + 1
        journalLost := t.journalLost
        ports := t.ports } ∧
      (∀ n, t.lostOf n =
        if inSet losers n = true ∧ s.lostOf n ≠ 255 then s.lostOf n + 1 else s.lostOf n) ∧
      ∀ n, t.port n =
        if inSet r.subscribers n = true ∧ ∀ y ∈ kept, inSet y.readers n = false then
          s.portTold n [.captureReady s.captureSeq c]
        else s.port n

/-- R129, R130: an accepted edge triggers every order of the input's armed list, one by one in list order, each with
due time e + offset. What comes before the triggers moves no order. A future order is placed in the schedule list; a
late one with REFUSE is removed with ENDED LATE whatever its notify setting. A late one with FIRE is applied at once,
after the orders due at T (R69). In a NORMAL group a STEP or PATTERN gives its commands and is removed, a PULSE gives
ASSERT and waits for its trailing edge, and a TRAIN makes a period start; each sends FIRED where it is asked for. R108,
R109: in a TRIPPED group no line changes, a STEP, PULSE or PATTERN is removed with SUPPRESSED, and a TRAIN keeps its
cadence in silence. The commands are as in AcceptedEdgeIsJournalled (assumption 18); that a late trigger makes the
firings still undone is the model's reading (assumption 8), the order of the commands of a PATTERN and a remaining count
of 0 are as in FiringStepOrPattern and FiringTrain (assumptions 24 and 19). -/
def Obligations.AcceptedEdgeTriggersOrder : Prop :=
  (∀ (cmd : Instr) (c : InputNo) (level : Level) (d : Direction) (e : Time) (s : State),
    s.acceptsEdge cmd c level d e →
    ∃ u : State, exec cmd (s.setArmed c []) = .next u ∧
      u.slots = s.slots ∧ u.schedule = s.schedule ∧ u.tb = s.tb ∧
      exec cmd s = .next ((s.armedOn c).foldl (State.trigger e) u)) ∧
  ∀ (e : Time) (v : State) (i : SlotNo) (o : Order) (c : InputNo) (offset : Half),
    v.order i = some o → o.state = .armed → o.trigger = some ⟨c, offset⟩ → v.tb.h ≤ 30 →
    let due := e + offset.setWidth 32
    let away := (due - v.tb.t).toNat
    let h : Handle := ⟨i, (v.slot i).generation⟩
    let phase : Phase := match o.body with
      | .pulse _ _ => .leading
      | .train _ _ => .leading
      | _ => .absent
    (1 ≤ away → away ≤ 2 ^ v.tb.h →
      v.trigger e i = v.placeOrder i { o with state := .scheduled due phase }) ∧
    ((away = 0 ∨ 2 ^ 31 < away) → o.late = .refuse →
      v.trigger e i = (v.removeOrder i).told o.station (.ended h o.tag .late v.tb.t)) ∧
    ((away = 0 ∨ 2 ^ 31 < away) → o.late = .fire → v.schedule.Nodup →
      (∀ j a, v.order j = some a → a.inRange v.horizon) →
      v.trigger e i = v.fireDue.trigger e i ∧ v.fireDue.noneDue ∧ v.fireDue.order i = some o ∧
        (v.fireDue.slot i).generation = (v.slot i).generation ∧ v.fireDue.tb = v.tb) ∧
    ((away = 0 ∨ 2 ^ 31 < away) → o.late = .fire → v.noneDue →
      let o' := { o with state := .scheduled v.tb.t phase }
      v.trigger e i = (v.setOrder i o').fireEdge .atTrigger i o' ∧
      ((v.group o.body.group).state = .normal →
        (∀ l a, o.body = .step l a →
          v.trigger e i = ((v.command l (match a with
            | .assert => .assert
            | .deassert => .deassert
            | .invert => .invert)).removeOrder i).toldFired h o v.tb.t) ∧
        (∀ g m levels, o.body = .pattern g m levels →
          let w := ([0, 1, 2, 3] : List (Fin 4)).foldl (fun u j =>
            if m.getLsbD j.val then u.command (groupLine g j) (.level (levels.getLsbD j.val)) else u) v
          v.trigger e i = (w.removeOrder i).toldFired h o v.tb.t) ∧
        (∀ l w, o.body = .pulse l w →
          v.trigger e i = ((v.command l .assert).placeOrder i
            { o with state := .scheduled (v.tb.t + w.setWidth 32) .trailing, started := true }).toldFired
            h o v.tb.t) ∧
        ∀ l x, o.body = .train l x →
          let width := match x.pending with | some r => r.width | none => x.width
          let period := match x.pending with | some r => r.period | none => x.period
          let exhausted := x.begun = true ∧ ∃ n, x.remaining = some n ∧ n.toNat ≤ 1
          let ended := (v.command l .deassert).removeOrder i
          (exhausted → v.trigger e i = ended.toldEnded h o .complete v.tb.t) ∧
          (¬exhausted → o.ending = true → v.trigger e i = ended.toldEnded h o .cancelled v.tb.t) ∧
          (¬exhausted → o.ending = false → v.trigger e i =
            ((v.command l (if width = 0 then .deassert else .assert)).placeOrder i
              { o with
                body := .train l
                  { width := width, period := period
                    remaining := if x.begun then x.remaining.map (fun n => n - 1) else x.remaining
                    pending := none, begun := true }
                started := true
                state :=
                  if width = 0 ∨ width = period then .scheduled (v.tb.t + period.setWidth 32) .leading
                  else .scheduled (v.tb.t + width.setWidth 32) .trailing }).toldFired h o v.tb.t)) ∧
      ((v.group o.body.group).state = .tripped →
        ((∀ l x, o.body ≠ .train l x) →
          v.trigger e i = (v.removeOrder i).told o.station (.suppressed h o.tag v.tb.t)) ∧
        ∀ l x, o.body = .train l x →
          let width := match x.pending with | some r => r.width | none => x.width
          let period := match x.pending with | some r => r.period | none => x.period
          let finished := (x.begun = true ∧ ∃ n, x.remaining = some n ∧ n.toNat ≤ 1) ∨ o.ending = true
          (finished → v.trigger e i =
            (v.removeOrder i).told o.station (.ended h o.tag .suppressed v.tb.t)) ∧
          (¬finished → v.trigger e i = v.placeOrder i
            { o with
              body := .train l
                { width := width, period := period
                  remaining := if x.begun then x.remaining.map (fun n => n - 1) else x.remaining
                  pending := none, begun := true }
              state :=
                if width = 0 ∨ width = period then .scheduled (v.tb.t + period.setWidth 32) .leading
                else .scheduled (v.tb.t + width.setWidth 32) .trailing })))

/-! ### Ports -/

/-- R148 to R151, R154: the receiver, character by character. In HUNT a good character with marker 1 begins a frame
and any other is ignored; HEADER, BODY and CHECK each take their bytes; a complete frame is decided CHECK, KIND,
FULL or queued, in that order; stop bit 0 ends a frame FRAMING, marker 1 SHORT with a new frame begun, and a length
above 48 LONG. In BREAK no character is accepted. Each discard raises its counter alone, up to 65535. That a
character in BREAK is no event is the model's choice (assumption 1). -/
def Obligations.ReceiverAssemblesFrames : Prop :=
  ∀ (p : StationNo) (data : Byte) (s : State), s.atWork →
    let r := s.port p
    let size := (r.buffer.getD 3 0).toNat
    let up (x : Half) : Half := if x = 65535 then x else x + 1
    let hunting : PortRec := { r with receiver := .hunt, buffer := [] }
    let taken := r.buffer ++ [data]
    (r.receiver = .hunt →
      exec (.characterReceived p data true true) s = .next
        (s.setPort p { r with receiver := .header, buffer := [data] }) ∧
      exec (.characterReceived p data false true) s = .next s ∧
      exec (.characterReceived p data true false) s = .next s ∧
      exec (.characterReceived p data false false) s = .next s) ∧
    (r.receiver = .inBreak → ∀ marker stop,
      exec (.characterReceived p data marker stop) s = .next s ∧
      exec (.frameEndEarly p data marker stop) s = .next s ∧ exec (.frameComplete p data) s = .next s) ∧
    (r.receiver = .header →
      (taken.length < 4 → exec (.characterReceived p data false true) s = .next
        (s.setPort p { r with buffer := taken })) ∧
      (taken.length = 4 → data.toNat ≤ 48 → exec (.characterReceived p data false true) s = .next
        (s.setPort p { r with receiver := if data = 0 then .check else .body, buffer := taken })) ∧
      (taken.length = 4 → 48 < data.toNat → exec (.frameEndEarly p data false true) s = .next
        (s.setPort p { hunting with discards := { r.discards with long := up r.discards.long } }))) ∧
    (r.receiver = .body →
      exec (.characterReceived p data false true) s = .next (s.setPort p
        { r with receiver := if taken.length = size + 4 then .check else .body, buffer := taken })) ∧
    (r.receiver = .check →
      (taken.length ≠ size + 6 → exec (.characterReceived p data false true) s = .next
        (s.setPort p { r with buffer := taken })) ∧
      (taken.length = size + 6 →
        let good := checkValue (r.buffer.take (size + 4)) = r.buffer.getD (size + 4) 0 ++ data
        let kind := (r.buffer.getD 0 0).toNat / 64
        (¬good → exec (.frameComplete p data) s = .next (s.setPort p
          { hunting with discards := { r.discards with check := up r.discards.check } })) ∧
        (good → kind ≠ 0 → exec (.frameComplete p data) s = .next (s.setPort p
          { hunting with discards := { r.discards with kind := up r.discards.kind } })) ∧
        (good → kind = 0 → 2 ≤ r.requests.length → exec (.frameComplete p data) s = .next
          (s.setPort p
            { hunting with discards := { r.discards with full := up r.discards.full } })) ∧
        (good → kind = 0 → r.requests.length < 2 → exec (.frameComplete p data) s = .next
          (s.setPort p { hunting with requests := r.requests ++
            [{ sequence := (r.buffer.getD 0 0).extractLsb' 0 6
               session := r.buffer.getD 1 0
               code := r.buffer.getD 2 0
               payload := (r.buffer.drop 4).take size }] })))) ∧
    ((r.receiver = .header ∨ r.receiver = .body ∨ r.receiver = .check) →
      (∀ marker, exec (.frameEndEarly p data marker false) s = .next (s.setPort p
        { hunting with discards := { r.discards with framing := up r.discards.framing } })) ∧
      exec (.frameEndEarly p data true true) s = .next (s.setPort p
        { r with
          receiver := .header, buffer := [data]
          discards := { r.discards with short := up r.discards.short } }))

/-- R158, R160: the end of a frame makes the transmitter idle, and it chooses: the waiting reply; or else, for a
BOUND station, the oldest notice, whose header takes the notice sequence, the session number and the lost count,
which then starts again from 0. With neither it stays idle. The character reached is on the line as Table 9-2 of R147
gives its 11 bits, with marker 1 on the first character of the frame alone, and an idle line carries none. A
transmitter that is idle ends nothing. That last is the model's choice (assumption 1), and so is that a drop just
before the beginning of a notice counts in that notice (assumption 25). -/
def Obligations.TransmitterChoosesNextFrame : Prop :=
  ∀ (p : StationNo) (s : State), s.atWork →
    let r := s.port p
    (r.transmitter = .idle → exec (.transmitEnd p) s = .next s) ∧
    (r.transmitter ≠ .idle →
      (∀ x, r.replySlot = some x → exec (.transmitEnd p) s = .next
        (s.setPort p { r with replySlot := none, transmitter := .sending x.frame 0 })) ∧
      (r.replySlot = none → ∀ x rest number, r.notices = x :: rest →
        (s.station p).session = .bound → (s.station p).number = some number →
        exec (.transmitEnd p) s = .next (s.setPort p { r with
          notices := rest
          noticesLost := 0
          noticeSeq := r.noticeSeq + 1
          transmitter := .sending (withCheck ([128#8 ||| r.noticeSeq.setWidth 8, number, x.code,
            r.noticesLost, BitVec.ofNat 8 x.payload.length] ++ x.payload)) 0 })) ∧
      (r.replySlot = none → (r.notices = [] ∨ (s.station p).session ≠ .bound) →
        exec (.transmitEnd p) s = .next (s.setPort p { r with transmitter := .idle }))) ∧
    (r.transmitter = .idle → s.sentCharacter p = none) ∧
    ∀ frame k x, (r.transmitter = .sending frame k ∨ r.transmitter = .cut frame k) →
      frame[k]? = some x →
      (s.sentCharacter p).map Character.bits = some
        [false, x.getLsbD 0, x.getLsbD 1, x.getLsbD 2, x.getLsbD 3, x.getLsbD 4, x.getLsbD 5,
         x.getLsbD 6, x.getLsbD 7, decide (k = 0), true]

/-! ### Power-on reset -/

/-- R177, R178, R113: RESET_BEGIN discards everything held and puts every block at its power-on values; while reset
lasts no other command has an effect; POWER_ON_RESET_END ends it with the port rate of the straps, and with every
group TRIPPED if either guard input is sampled low. Outside reset it is no event. That the part holds its power-on
values already while reset lasts, keeping M, and that a command without its event changes nothing, are the model's
choices (assumptions 17 and 1). -/
def Obligations.PowerOnResetBeginsAndEnds : Prop :=
  (∀ s, ∃ t : State, exec .resetBegin s = .next t ∧ t.inReset = true ∧
    t = { State.reset with
      pending := s.pending, freeChoices := s.freeChoices, inReset := true
      rateDivisor := s.rateDivisor } ∧
    ∀ l, t.linePin l = .highImpedance) ∧
  (∀ s c, s.inReset = true → c ≠ .resetBegin → (∀ a b x y, c ≠ .powerOnResetEnd a b x y) →
    exec c s = .next s) ∧
  ∀ s rate1 rate0 ga gb,
    (s.inReset = false → exec (.powerOnResetEnd rate1 rate0 ga gb) s = .next s) ∧
    (s.inReset = true →
      ∃ t : State, exec (.powerOnResetEnd rate1 rate0 ga gb) s = .next t ∧
        t = { State.reset with
          pending := s.pending, freeChoices := s.freeChoices
          rateDivisor := match rate1, rate0 with
            | .low, .low => 4
            | .low, .high => 8
            | .high, .low => 16
            | .high, .high => 32
          guardA := ga == .low
          guardB := gb == .low
          groups := t.groups } ∧
        ∀ g, t.group g = ⟨if ga = .low ∨ gb = .low then .tripped else .normal, .either⟩)

/-- R16, R35, R54, R83, R132, R146, R164: what power-on reset leaves, and that every law of the device holds there. The
guard inputs sampled high, the groups NORMAL with them, and both straps low are the model's choice (assumptions 2 and
3). -/
def Obligations.ResetStateIsLawful : Prop :=
  let s := State.reset
  (s.tb = { state := .halted, t := 0, d := 0, h := 24, arming := none, armTimer := none } ∧
    s.leaseClock = 0 ∧ s.inReset = false ∧ s.pending = []) ∧
  (∀ l, s.line l = { asserted := false, polarity := .normal, safe := false, driveOn := false
                     holder := none, granted := false }) ∧
  (∀ k, s.pair k = { state := .unbound, gap := 0 }) ∧
  (∀ g, s.group g = { state := .normal, map := .either }) ∧
  (s.held = [] ∧ s.waiting = [] ∧ s.claimCounter = 0) ∧
  (∀ i, s.slot i = { generation := 0, order := none }) ∧
  (s.schedule = [] ∧ s.postSeq = 0 ∧ s.journal = [] ∧ s.captureSeq = 0) ∧
  (∀ c, s.armedOn c = [] ∧ s.input c = { settings := none, subscribers := 0, state := .idle }) ∧
  (∀ n, s.lostOf n = 0 ∧ s.station n = { session := .unbound, number := none, counter := 0
                                         leasePeriod := none, leaseTimer := none, quota := 0 }) ∧
  (∀ n, s.port n = { receiver := .hunt, buffer := [], requests := [], replySlot := none
                     lastRequest := none, replyCache := none, notices := [], noticesLost := 0
                     noticeSeq := 0, transmitter := .idle, discards := ⟨0, 0, 0, 0, 0, 0⟩ }) ∧
  s.queueLaw ∧ s.claimLaw ∧ s.waitLaw ∧ s.captureLaw ∧ s.sessionLaw ∧ s.timebaseLaw ∧ s.quotaLaw ∧
    s.haltedLaw ∧ s.trippedLaw ∧ s.orderLaw ∧ s.pairLaw ∧ s.scheduleLaw

/-! ### Every step -/

/-- R4, R104, R112, R32, R18, R61, R178, R138: which commands may change what, outside RESET_BEGIN: d and h only an
accepted TIME_START; the rate divisor none; a TRIPPED group becomes NORMAL only by REARM, and a guard map changes
only by GUARD_MAP; polarity and safe levels change only by SHAPE, and drive turns OFF only by SHAPE; the post
sequence moves only by POST, by one; a session counter moves only by BIND on its own port. No command touches the
queue of waiting commands. A request taken first (ReplayAnswersFromCache) changes what its own row may. -/
def Obligations.WhichCommandChangesWhat : Prop :=
  ∀ (c : Instr) (s t : State), exec c s = .next t → t.pending = s.pending ∧
    (s.inReset = false → c ≠ .resetBegin → (takesFirst c → s.settled) →
      t.rateDivisor = s.rateDivisor ∧
      ((t.tb.d ≠ s.tb.d ∨ t.tb.h ≠ s.tb.h) →
        s.tb.state = .halted ∧ ∃ p, c = .timeStartImmediate p ∨ c = .timeStartOnMark p) ∧
      (∀ g, (s.group g).state = .tripped → (t.group g).state = .normal → ∃ p, c = .rearm p) ∧
      (∀ g, (t.group g).map ≠ (s.group g).map → ∃ p, c = .guardMap p) ∧
      (∀ l, ((t.line l).polarity ≠ (s.line l).polarity ∨ (t.line l).safe ≠ (s.line l).safe ∨
          ((s.line l).driveOn = true ∧ (t.line l).driveOn = false)) → ∃ p, c = .shape p) ∧
      (t.postSeq ≠ s.postSeq → t.postSeq = s.postSeq + 1 ∧ ∃ p, c = .post p) ∧
      ∀ n, (t.station n).counter ≠ (s.station n).counter → c = .bind n)

/-- R122, R114, R159, R154, R158: every step keeps the bounds of the notice and request queues, a reply in its slot
only while the transmitter sends, the numbering and the bound of the journal, and the tie between an input's state and
its subscribers. -/
def Obligations.StepKeepsQueuesAndJournal : Prop :=
  ∀ (s t : State), s.queueLaw → s.captureLaw → step s = .next t → t.queueLaw ∧ t.captureLaw

/-- R36, R37, R42: every step keeps the claim table: each claim names a line, belongs to a BOUND station and has an
id of its own; a line's holder field names the one HELD claim with that line; and the waiting list keeps its bounds. -/
def Obligations.StepKeepsClaimTable : Prop :=
  ∀ (s t : State), s.claimLaw → s.waitLaw → step s = .next t → t.claimLaw ∧ t.waitLaw

/-- R58, R66, R28: every step keeps the law of orders: each belongs to a BOUND station, every line it targets is
held by that station, and none of them is the partner of a bound pair. -/
def Obligations.StepKeepsOrdersOnHeldLines : Prop :=
  ∀ (s t : State), s.claimLaw → s.waitLaw → s.orderLaw → step s = .next t → t.orderLaw

/-- R22, R27: every step keeps the law of pairs: a bound state fixes both lines, which are never both ASSERTED, and
the two safe levels of a bound pair are never both ASSERTED. -/
def Obligations.StepKeepsPairsBreakBeforeMake : Prop :=
  ∀ (s t : State), s.claimLaw → s.waitLaw → s.orderLaw → s.pairLaw → step s = .next t → t.pairLaw

/-- R134, R59, R12, R6 to R9: every step keeps the laws of sessions, quotas and the timebase: a BOUND station's
number is its counter and not 0; no station has more orders than its quota, and the quotas sum to at most 128; d and
h lie in their ranges; and while the timebase is not RUNNING no order exists and no gap runs. -/
def Obligations.StepKeepsSessionsQuotasAndTimebase : Prop :=
  ∀ (s t : State), s.sessionLaw → s.quotaLaw → s.timebaseLaw → s.haltedLaw → step s = .next t →
    t.sessionLaw ∧ t.quotaLaw ∧ t.timebaseLaw ∧ t.haltedLaw

/-- R106: every step keeps every line of a TRIPPED group at its safe level, with no gap in the group. -/
def Obligations.StepKeepsTrippedGroupsSafe : Prop :=
  ∀ (s t : State), s.trippedLaw → step s = .next t → t.trippedLaw

/-- R62, R63: every step keeps the schedule list and the armed set: each order stands in its list once, the schedule
list in ascending order of distance and never beyond the horizon. -/
def Obligations.StepKeepsSchedule : Prop :=
  ∀ (s t : State), s.scheduleLaw → s.haltedLaw → s.timebaseLaw → step s = .next t → t.scheduleLaw
end

