-- ==== Sys2Proof/Laws/State.lean ====
section
/-! SUPPORT. One lemma for each field of `State` under each update of one record: what the update writes, and that
it leaves every other field and record as it was. -/

namespace Sys2Proof.Machine

/-- Reading a vector after one of its entries is replaced. -/
theorem vector_get_set {α : Type} {n : Nat} (v : Vector α n) (i j : Fin n) (x : α) :
    (v.set i x)[j] = if j = i then x else v[j] := by
  simp only [Fin.getElem_fin, Vector.getElem_set, Fin.ext_iff, eq_comm]

variable (s : State)

/-! ### `setLine` -/
@[simp] theorem State.setLine_pending (l : LineNo) (r : LineRec) :
    (s.setLine l r).pending = s.pending := rfl
@[simp] theorem State.setLine_freeChoices (l : LineNo) (r : LineRec) :
    (s.setLine l r).freeChoices = s.freeChoices := rfl
@[simp] theorem State.setLine_inReset (l : LineNo) (r : LineRec) :
    (s.setLine l r).inReset = s.inReset := rfl
@[simp] theorem State.setLine_tb (l : LineNo) (r : LineRec) :
    (s.setLine l r).tb = s.tb := rfl
@[simp] theorem State.setLine_leaseClock (l : LineNo) (r : LineRec) :
    (s.setLine l r).leaseClock = s.leaseClock := rfl
@[simp] theorem State.setLine_pairs (l : LineNo) (r : LineRec) :
    (s.setLine l r).pairs = s.pairs := rfl
@[simp] theorem State.setLine_groups (l : LineNo) (r : LineRec) :
    (s.setLine l r).groups = s.groups := rfl
@[simp] theorem State.setLine_held (l : LineNo) (r : LineRec) :
    (s.setLine l r).held = s.held := rfl
@[simp] theorem State.setLine_waiting (l : LineNo) (r : LineRec) :
    (s.setLine l r).waiting = s.waiting := rfl
@[simp] theorem State.setLine_claimCounter (l : LineNo) (r : LineRec) :
    (s.setLine l r).claimCounter = s.claimCounter := rfl
@[simp] theorem State.setLine_slots (l : LineNo) (r : LineRec) :
    (s.setLine l r).slots = s.slots := rfl
@[simp] theorem State.setLine_schedule (l : LineNo) (r : LineRec) :
    (s.setLine l r).schedule = s.schedule := rfl
@[simp] theorem State.setLine_armed (l : LineNo) (r : LineRec) :
    (s.setLine l r).armed = s.armed := rfl
@[simp] theorem State.setLine_postSeq (l : LineNo) (r : LineRec) :
    (s.setLine l r).postSeq = s.postSeq := rfl
@[simp] theorem State.setLine_guardA (l : LineNo) (r : LineRec) :
    (s.setLine l r).guardA = s.guardA := rfl
@[simp] theorem State.setLine_guardB (l : LineNo) (r : LineRec) :
    (s.setLine l r).guardB = s.guardB := rfl
@[simp] theorem State.setLine_inputs (l : LineNo) (r : LineRec) :
    (s.setLine l r).inputs = s.inputs := rfl
@[simp] theorem State.setLine_journal (l : LineNo) (r : LineRec) :
    (s.setLine l r).journal = s.journal := rfl
@[simp] theorem State.setLine_captureSeq (l : LineNo) (r : LineRec) :
    (s.setLine l r).captureSeq = s.captureSeq := rfl
@[simp] theorem State.setLine_journalLost (l : LineNo) (r : LineRec) :
    (s.setLine l r).journalLost = s.journalLost := rfl
@[simp] theorem State.setLine_stations (l : LineNo) (r : LineRec) :
    (s.setLine l r).stations = s.stations := rfl
@[simp] theorem State.setLine_ports (l : LineNo) (r : LineRec) :
    (s.setLine l r).ports = s.ports := rfl
@[simp] theorem State.setLine_rateDivisor (l : LineNo) (r : LineRec) :
    (s.setLine l r).rateDivisor = s.rateDivisor := rfl
@[simp] theorem State.setLine_pair (l : LineNo) (r : LineRec) (x : PairNo) :
    (s.setLine l r).pair x = s.pair x := rfl
@[simp] theorem State.setLine_group (l : LineNo) (r : LineRec) (x : GroupNo) :
    (s.setLine l r).group x = s.group x := rfl
@[simp] theorem State.setLine_slot (l : LineNo) (r : LineRec) (x : SlotNo) :
    (s.setLine l r).slot x = s.slot x := rfl
@[simp] theorem State.setLine_order (l : LineNo) (r : LineRec) (x : SlotNo) :
    (s.setLine l r).order x = s.order x := rfl
@[simp] theorem State.setLine_armedOn (l : LineNo) (r : LineRec) (x : InputNo) :
    (s.setLine l r).armedOn x = s.armedOn x := rfl
@[simp] theorem State.setLine_input (l : LineNo) (r : LineRec) (x : InputNo) :
    (s.setLine l r).input x = s.input x := rfl
@[simp] theorem State.setLine_lostOf (l : LineNo) (r : LineRec) (x : StationNo) :
    (s.setLine l r).lostOf x = s.lostOf x := rfl
@[simp] theorem State.setLine_station (l : LineNo) (r : LineRec) (x : StationNo) :
    (s.setLine l r).station x = s.station x := rfl
@[simp] theorem State.setLine_port (l : LineNo) (r : LineRec) (x : StationNo) :
    (s.setLine l r).port x = s.port x := rfl
@[simp] theorem State.setLine_line_self (l : LineNo) (r : LineRec) : (s.setLine l r).line l = r := by
  simp [State.setLine, State.line]
theorem State.setLine_line (l : LineNo) (r : LineRec) (x : LineNo) :
    (s.setLine l r).line x = if x = l then r else s.line x :=
  vector_get_set _ _ _ _
@[simp] theorem State.setLine_line_ne (l : LineNo) (r : LineRec) {x : LineNo} (h : x ≠ l) :
    (s.setLine l r).line x = s.line x := by simp [State.setLine_line, h]

/-! ### `setPair` -/
@[simp] theorem State.setPair_pending (k : PairNo) (r : PairUnit) :
    (s.setPair k r).pending = s.pending := rfl
@[simp] theorem State.setPair_freeChoices (k : PairNo) (r : PairUnit) :
    (s.setPair k r).freeChoices = s.freeChoices := rfl
@[simp] theorem State.setPair_inReset (k : PairNo) (r : PairUnit) :
    (s.setPair k r).inReset = s.inReset := rfl
@[simp] theorem State.setPair_tb (k : PairNo) (r : PairUnit) :
    (s.setPair k r).tb = s.tb := rfl
@[simp] theorem State.setPair_leaseClock (k : PairNo) (r : PairUnit) :
    (s.setPair k r).leaseClock = s.leaseClock := rfl
@[simp] theorem State.setPair_lines (k : PairNo) (r : PairUnit) :
    (s.setPair k r).lines = s.lines := rfl
@[simp] theorem State.setPair_groups (k : PairNo) (r : PairUnit) :
    (s.setPair k r).groups = s.groups := rfl
@[simp] theorem State.setPair_held (k : PairNo) (r : PairUnit) :
    (s.setPair k r).held = s.held := rfl
@[simp] theorem State.setPair_waiting (k : PairNo) (r : PairUnit) :
    (s.setPair k r).waiting = s.waiting := rfl
@[simp] theorem State.setPair_claimCounter (k : PairNo) (r : PairUnit) :
    (s.setPair k r).claimCounter = s.claimCounter := rfl
@[simp] theorem State.setPair_slots (k : PairNo) (r : PairUnit) :
    (s.setPair k r).slots = s.slots := rfl
@[simp] theorem State.setPair_schedule (k : PairNo) (r : PairUnit) :
    (s.setPair k r).schedule = s.schedule := rfl
@[simp] theorem State.setPair_armed (k : PairNo) (r : PairUnit) :
    (s.setPair k r).armed = s.armed := rfl
@[simp] theorem State.setPair_postSeq (k : PairNo) (r : PairUnit) :
    (s.setPair k r).postSeq = s.postSeq := rfl
@[simp] theorem State.setPair_guardA (k : PairNo) (r : PairUnit) :
    (s.setPair k r).guardA = s.guardA := rfl
@[simp] theorem State.setPair_guardB (k : PairNo) (r : PairUnit) :
    (s.setPair k r).guardB = s.guardB := rfl
@[simp] theorem State.setPair_inputs (k : PairNo) (r : PairUnit) :
    (s.setPair k r).inputs = s.inputs := rfl
@[simp] theorem State.setPair_journal (k : PairNo) (r : PairUnit) :
    (s.setPair k r).journal = s.journal := rfl
@[simp] theorem State.setPair_captureSeq (k : PairNo) (r : PairUnit) :
    (s.setPair k r).captureSeq = s.captureSeq := rfl
@[simp] theorem State.setPair_journalLost (k : PairNo) (r : PairUnit) :
    (s.setPair k r).journalLost = s.journalLost := rfl
@[simp] theorem State.setPair_stations (k : PairNo) (r : PairUnit) :
    (s.setPair k r).stations = s.stations := rfl
@[simp] theorem State.setPair_ports (k : PairNo) (r : PairUnit) :
    (s.setPair k r).ports = s.ports := rfl
@[simp] theorem State.setPair_rateDivisor (k : PairNo) (r : PairUnit) :
    (s.setPair k r).rateDivisor = s.rateDivisor := rfl
@[simp] theorem State.setPair_line (k : PairNo) (r : PairUnit) (x : LineNo) :
    (s.setPair k r).line x = s.line x := rfl
@[simp] theorem State.setPair_group (k : PairNo) (r : PairUnit) (x : GroupNo) :
    (s.setPair k r).group x = s.group x := rfl
@[simp] theorem State.setPair_slot (k : PairNo) (r : PairUnit) (x : SlotNo) :
    (s.setPair k r).slot x = s.slot x := rfl
@[simp] theorem State.setPair_order (k : PairNo) (r : PairUnit) (x : SlotNo) :
    (s.setPair k r).order x = s.order x := rfl
@[simp] theorem State.setPair_armedOn (k : PairNo) (r : PairUnit) (x : InputNo) :
    (s.setPair k r).armedOn x = s.armedOn x := rfl
@[simp] theorem State.setPair_input (k : PairNo) (r : PairUnit) (x : InputNo) :
    (s.setPair k r).input x = s.input x := rfl
@[simp] theorem State.setPair_lostOf (k : PairNo) (r : PairUnit) (x : StationNo) :
    (s.setPair k r).lostOf x = s.lostOf x := rfl
@[simp] theorem State.setPair_station (k : PairNo) (r : PairUnit) (x : StationNo) :
    (s.setPair k r).station x = s.station x := rfl
@[simp] theorem State.setPair_port (k : PairNo) (r : PairUnit) (x : StationNo) :
    (s.setPair k r).port x = s.port x := rfl
@[simp] theorem State.setPair_pair_self (k : PairNo) (r : PairUnit) : (s.setPair k r).pair k = r := by
  simp [State.setPair, State.pair]
theorem State.setPair_pair (k : PairNo) (r : PairUnit) (x : PairNo) :
    (s.setPair k r).pair x = if x = k then r else s.pair x :=
  vector_get_set _ _ _ _
@[simp] theorem State.setPair_pair_ne (k : PairNo) (r : PairUnit) {x : PairNo} (h : x ≠ k) :
    (s.setPair k r).pair x = s.pair x := by simp [State.setPair_pair, h]

/-! ### `setGroup` -/
@[simp] theorem State.setGroup_pending (g : GroupNo) (r : GroupRec) :
    (s.setGroup g r).pending = s.pending := rfl
@[simp] theorem State.setGroup_freeChoices (g : GroupNo) (r : GroupRec) :
    (s.setGroup g r).freeChoices = s.freeChoices := rfl
@[simp] theorem State.setGroup_inReset (g : GroupNo) (r : GroupRec) :
    (s.setGroup g r).inReset = s.inReset := rfl
@[simp] theorem State.setGroup_tb (g : GroupNo) (r : GroupRec) :
    (s.setGroup g r).tb = s.tb := rfl
@[simp] theorem State.setGroup_leaseClock (g : GroupNo) (r : GroupRec) :
    (s.setGroup g r).leaseClock = s.leaseClock := rfl
@[simp] theorem State.setGroup_lines (g : GroupNo) (r : GroupRec) :
    (s.setGroup g r).lines = s.lines := rfl
@[simp] theorem State.setGroup_pairs (g : GroupNo) (r : GroupRec) :
    (s.setGroup g r).pairs = s.pairs := rfl
@[simp] theorem State.setGroup_held (g : GroupNo) (r : GroupRec) :
    (s.setGroup g r).held = s.held := rfl
@[simp] theorem State.setGroup_waiting (g : GroupNo) (r : GroupRec) :
    (s.setGroup g r).waiting = s.waiting := rfl
@[simp] theorem State.setGroup_claimCounter (g : GroupNo) (r : GroupRec) :
    (s.setGroup g r).claimCounter = s.claimCounter := rfl
@[simp] theorem State.setGroup_slots (g : GroupNo) (r : GroupRec) :
    (s.setGroup g r).slots = s.slots := rfl
@[simp] theorem State.setGroup_schedule (g : GroupNo) (r : GroupRec) :
    (s.setGroup g r).schedule = s.schedule := rfl
@[simp] theorem State.setGroup_armed (g : GroupNo) (r : GroupRec) :
    (s.setGroup g r).armed = s.armed := rfl
@[simp] theorem State.setGroup_postSeq (g : GroupNo) (r : GroupRec) :
    (s.setGroup g r).postSeq = s.postSeq := rfl
@[simp] theorem State.setGroup_guardA (g : GroupNo) (r : GroupRec) :
    (s.setGroup g r).guardA = s.guardA := rfl
@[simp] theorem State.setGroup_guardB (g : GroupNo) (r : GroupRec) :
    (s.setGroup g r).guardB = s.guardB := rfl
@[simp] theorem State.setGroup_inputs (g : GroupNo) (r : GroupRec) :
    (s.setGroup g r).inputs = s.inputs := rfl
@[simp] theorem State.setGroup_journal (g : GroupNo) (r : GroupRec) :
    (s.setGroup g r).journal = s.journal := rfl
@[simp] theorem State.setGroup_captureSeq (g : GroupNo) (r : GroupRec) :
    (s.setGroup g r).captureSeq = s.captureSeq := rfl
@[simp] theorem State.setGroup_journalLost (g : GroupNo) (r : GroupRec) :
    (s.setGroup g r).journalLost = s.journalLost := rfl
@[simp] theorem State.setGroup_stations (g : GroupNo) (r : GroupRec) :
    (s.setGroup g r).stations = s.stations := rfl
@[simp] theorem State.setGroup_ports (g : GroupNo) (r : GroupRec) :
    (s.setGroup g r).ports = s.ports := rfl
@[simp] theorem State.setGroup_rateDivisor (g : GroupNo) (r : GroupRec) :
    (s.setGroup g r).rateDivisor = s.rateDivisor := rfl
@[simp] theorem State.setGroup_line (g : GroupNo) (r : GroupRec) (x : LineNo) :
    (s.setGroup g r).line x = s.line x := rfl
@[simp] theorem State.setGroup_pair (g : GroupNo) (r : GroupRec) (x : PairNo) :
    (s.setGroup g r).pair x = s.pair x := rfl
@[simp] theorem State.setGroup_slot (g : GroupNo) (r : GroupRec) (x : SlotNo) :
    (s.setGroup g r).slot x = s.slot x := rfl
@[simp] theorem State.setGroup_order (g : GroupNo) (r : GroupRec) (x : SlotNo) :
    (s.setGroup g r).order x = s.order x := rfl
@[simp] theorem State.setGroup_armedOn (g : GroupNo) (r : GroupRec) (x : InputNo) :
    (s.setGroup g r).armedOn x = s.armedOn x := rfl
@[simp] theorem State.setGroup_input (g : GroupNo) (r : GroupRec) (x : InputNo) :
    (s.setGroup g r).input x = s.input x := rfl
@[simp] theorem State.setGroup_lostOf (g : GroupNo) (r : GroupRec) (x : StationNo) :
    (s.setGroup g r).lostOf x = s.lostOf x := rfl
@[simp] theorem State.setGroup_station (g : GroupNo) (r : GroupRec) (x : StationNo) :
    (s.setGroup g r).station x = s.station x := rfl
@[simp] theorem State.setGroup_port (g : GroupNo) (r : GroupRec) (x : StationNo) :
    (s.setGroup g r).port x = s.port x := rfl
@[simp] theorem State.setGroup_group_self (g : GroupNo) (r : GroupRec) : (s.setGroup g r).group g = r := by
  simp [State.setGroup, State.group]
theorem State.setGroup_group (g : GroupNo) (r : GroupRec) (x : GroupNo) :
    (s.setGroup g r).group x = if x = g then r else s.group x :=
  vector_get_set _ _ _ _
@[simp] theorem State.setGroup_group_ne (g : GroupNo) (r : GroupRec) {x : GroupNo} (h : x ≠ g) :
    (s.setGroup g r).group x = s.group x := by simp [State.setGroup_group, h]

/-! ### `setSlot` -/
@[simp] theorem State.setSlot_pending (i : SlotNo) (r : Slot) :
    (s.setSlot i r).pending = s.pending := rfl
@[simp] theorem State.setSlot_freeChoices (i : SlotNo) (r : Slot) :
    (s.setSlot i r).freeChoices = s.freeChoices := rfl
@[simp] theorem State.setSlot_inReset (i : SlotNo) (r : Slot) :
    (s.setSlot i r).inReset = s.inReset := rfl
@[simp] theorem State.setSlot_tb (i : SlotNo) (r : Slot) :
    (s.setSlot i r).tb = s.tb := rfl
@[simp] theorem State.setSlot_leaseClock (i : SlotNo) (r : Slot) :
    (s.setSlot i r).leaseClock = s.leaseClock := rfl
@[simp] theorem State.setSlot_lines (i : SlotNo) (r : Slot) :
    (s.setSlot i r).lines = s.lines := rfl
@[simp] theorem State.setSlot_pairs (i : SlotNo) (r : Slot) :
    (s.setSlot i r).pairs = s.pairs := rfl
@[simp] theorem State.setSlot_groups (i : SlotNo) (r : Slot) :
    (s.setSlot i r).groups = s.groups := rfl
@[simp] theorem State.setSlot_held (i : SlotNo) (r : Slot) :
    (s.setSlot i r).held = s.held := rfl
@[simp] theorem State.setSlot_waiting (i : SlotNo) (r : Slot) :
    (s.setSlot i r).waiting = s.waiting := rfl
@[simp] theorem State.setSlot_claimCounter (i : SlotNo) (r : Slot) :
    (s.setSlot i r).claimCounter = s.claimCounter := rfl
@[simp] theorem State.setSlot_schedule (i : SlotNo) (r : Slot) :
    (s.setSlot i r).schedule = s.schedule := rfl
@[simp] theorem State.setSlot_armed (i : SlotNo) (r : Slot) :
    (s.setSlot i r).armed = s.armed := rfl
@[simp] theorem State.setSlot_postSeq (i : SlotNo) (r : Slot) :
    (s.setSlot i r).postSeq = s.postSeq := rfl
@[simp] theorem State.setSlot_guardA (i : SlotNo) (r : Slot) :
    (s.setSlot i r).guardA = s.guardA := rfl
@[simp] theorem State.setSlot_guardB (i : SlotNo) (r : Slot) :
    (s.setSlot i r).guardB = s.guardB := rfl
@[simp] theorem State.setSlot_inputs (i : SlotNo) (r : Slot) :
    (s.setSlot i r).inputs = s.inputs := rfl
@[simp] theorem State.setSlot_journal (i : SlotNo) (r : Slot) :
    (s.setSlot i r).journal = s.journal := rfl
@[simp] theorem State.setSlot_captureSeq (i : SlotNo) (r : Slot) :
    (s.setSlot i r).captureSeq = s.captureSeq := rfl
@[simp] theorem State.setSlot_journalLost (i : SlotNo) (r : Slot) :
    (s.setSlot i r).journalLost = s.journalLost := rfl
@[simp] theorem State.setSlot_stations (i : SlotNo) (r : Slot) :
    (s.setSlot i r).stations = s.stations := rfl
@[simp] theorem State.setSlot_ports (i : SlotNo) (r : Slot) :
    (s.setSlot i r).ports = s.ports := rfl
@[simp] theorem State.setSlot_rateDivisor (i : SlotNo) (r : Slot) :
    (s.setSlot i r).rateDivisor = s.rateDivisor := rfl
@[simp] theorem State.setSlot_line (i : SlotNo) (r : Slot) (x : LineNo) :
    (s.setSlot i r).line x = s.line x := rfl
@[simp] theorem State.setSlot_pair (i : SlotNo) (r : Slot) (x : PairNo) :
    (s.setSlot i r).pair x = s.pair x := rfl
@[simp] theorem State.setSlot_group (i : SlotNo) (r : Slot) (x : GroupNo) :
    (s.setSlot i r).group x = s.group x := rfl
@[simp] theorem State.setSlot_armedOn (i : SlotNo) (r : Slot) (x : InputNo) :
    (s.setSlot i r).armedOn x = s.armedOn x := rfl
@[simp] theorem State.setSlot_input (i : SlotNo) (r : Slot) (x : InputNo) :
    (s.setSlot i r).input x = s.input x := rfl
@[simp] theorem State.setSlot_lostOf (i : SlotNo) (r : Slot) (x : StationNo) :
    (s.setSlot i r).lostOf x = s.lostOf x := rfl
@[simp] theorem State.setSlot_station (i : SlotNo) (r : Slot) (x : StationNo) :
    (s.setSlot i r).station x = s.station x := rfl
@[simp] theorem State.setSlot_port (i : SlotNo) (r : Slot) (x : StationNo) :
    (s.setSlot i r).port x = s.port x := rfl
@[simp] theorem State.setSlot_slot_self (i : SlotNo) (r : Slot) : (s.setSlot i r).slot i = r := by
  simp [State.setSlot, State.slot]
theorem State.setSlot_slot (i : SlotNo) (r : Slot) (x : SlotNo) :
    (s.setSlot i r).slot x = if x = i then r else s.slot x :=
  vector_get_set _ _ _ _
@[simp] theorem State.setSlot_slot_ne (i : SlotNo) (r : Slot) {x : SlotNo} (h : x ≠ i) :
    (s.setSlot i r).slot x = s.slot x := by simp [State.setSlot_slot, h]
@[simp] theorem State.setSlot_order_self (i : SlotNo) (r : Slot) : (s.setSlot i r).order i = r.order := by
  simp [State.order]
theorem State.setSlot_order (i : SlotNo) (r : Slot) (x : SlotNo) :
    (s.setSlot i r).order x = if x = i then r.order else s.order x := by
  simp only [State.order, State.setSlot_slot]; split <;> rfl

/-! ### `setArmed` -/
@[simp] theorem State.setArmed_pending (c : InputNo) (r : List SlotNo) :
    (s.setArmed c r).pending = s.pending := rfl
@[simp] theorem State.setArmed_freeChoices (c : InputNo) (r : List SlotNo) :
    (s.setArmed c r).freeChoices = s.freeChoices := rfl
@[simp] theorem State.setArmed_inReset (c : InputNo) (r : List SlotNo) :
    (s.setArmed c r).inReset = s.inReset := rfl
@[simp] theorem State.setArmed_tb (c : InputNo) (r : List SlotNo) :
    (s.setArmed c r).tb = s.tb := rfl
@[simp] theorem State.setArmed_leaseClock (c : InputNo) (r : List SlotNo) :
    (s.setArmed c r).leaseClock = s.leaseClock := rfl
@[simp] theorem State.setArmed_lines (c : InputNo) (r : List SlotNo) :
    (s.setArmed c r).lines = s.lines := rfl
@[simp] theorem State.setArmed_pairs (c : InputNo) (r : List SlotNo) :
    (s.setArmed c r).pairs = s.pairs := rfl
@[simp] theorem State.setArmed_groups (c : InputNo) (r : List SlotNo) :
    (s.setArmed c r).groups = s.groups := rfl
@[simp] theorem State.setArmed_held (c : InputNo) (r : List SlotNo) :
    (s.setArmed c r).held = s.held := rfl
@[simp] theorem State.setArmed_waiting (c : InputNo) (r : List SlotNo) :
    (s.setArmed c r).waiting = s.waiting := rfl
@[simp] theorem State.setArmed_claimCounter (c : InputNo) (r : List SlotNo) :
    (s.setArmed c r).claimCounter = s.claimCounter := rfl
@[simp] theorem State.setArmed_slots (c : InputNo) (r : List SlotNo) :
    (s.setArmed c r).slots = s.slots := rfl
@[simp] theorem State.setArmed_schedule (c : InputNo) (r : List SlotNo) :
    (s.setArmed c r).schedule = s.schedule := rfl
@[simp] theorem State.setArmed_postSeq (c : InputNo) (r : List SlotNo) :
    (s.setArmed c r).postSeq = s.postSeq := rfl
@[simp] theorem State.setArmed_guardA (c : InputNo) (r : List SlotNo) :
    (s.setArmed c r).guardA = s.guardA := rfl
@[simp] theorem State.setArmed_guardB (c : InputNo) (r : List SlotNo) :
    (s.setArmed c r).guardB = s.guardB := rfl
@[simp] theorem State.setArmed_inputs (c : InputNo) (r : List SlotNo) :
    (s.setArmed c r).inputs = s.inputs := rfl
@[simp] theorem State.setArmed_journal (c : InputNo) (r : List SlotNo) :
    (s.setArmed c r).journal = s.journal := rfl
@[simp] theorem State.setArmed_captureSeq (c : InputNo) (r : List SlotNo) :
    (s.setArmed c r).captureSeq = s.captureSeq := rfl
@[simp] theorem State.setArmed_journalLost (c : InputNo) (r : List SlotNo) :
    (s.setArmed c r).journalLost = s.journalLost := rfl
@[simp] theorem State.setArmed_stations (c : InputNo) (r : List SlotNo) :
    (s.setArmed c r).stations = s.stations := rfl
@[simp] theorem State.setArmed_ports (c : InputNo) (r : List SlotNo) :
    (s.setArmed c r).ports = s.ports := rfl
@[simp] theorem State.setArmed_rateDivisor (c : InputNo) (r : List SlotNo) :
    (s.setArmed c r).rateDivisor = s.rateDivisor := rfl
@[simp] theorem State.setArmed_line (c : InputNo) (r : List SlotNo) (x : LineNo) :
    (s.setArmed c r).line x = s.line x := rfl
@[simp] theorem State.setArmed_pair (c : InputNo) (r : List SlotNo) (x : PairNo) :
    (s.setArmed c r).pair x = s.pair x := rfl
@[simp] theorem State.setArmed_group (c : InputNo) (r : List SlotNo) (x : GroupNo) :
    (s.setArmed c r).group x = s.group x := rfl
@[simp] theorem State.setArmed_slot (c : InputNo) (r : List SlotNo) (x : SlotNo) :
    (s.setArmed c r).slot x = s.slot x := rfl
@[simp] theorem State.setArmed_order (c : InputNo) (r : List SlotNo) (x : SlotNo) :
    (s.setArmed c r).order x = s.order x := rfl
@[simp] theorem State.setArmed_input (c : InputNo) (r : List SlotNo) (x : InputNo) :
    (s.setArmed c r).input x = s.input x := rfl
@[simp] theorem State.setArmed_lostOf (c : InputNo) (r : List SlotNo) (x : StationNo) :
    (s.setArmed c r).lostOf x = s.lostOf x := rfl
@[simp] theorem State.setArmed_station (c : InputNo) (r : List SlotNo) (x : StationNo) :
    (s.setArmed c r).station x = s.station x := rfl
@[simp] theorem State.setArmed_port (c : InputNo) (r : List SlotNo) (x : StationNo) :
    (s.setArmed c r).port x = s.port x := rfl
@[simp] theorem State.setArmed_armedOn_self (c : InputNo) (r : List SlotNo) : (s.setArmed c r).armedOn c = r := by
  simp [State.setArmed, State.armedOn]
theorem State.setArmed_armedOn (c : InputNo) (r : List SlotNo) (x : InputNo) :
    (s.setArmed c r).armedOn x = if x = c then r else s.armedOn x :=
  vector_get_set _ _ _ _
@[simp] theorem State.setArmed_armedOn_ne (c : InputNo) (r : List SlotNo) {x : InputNo} (h : x ≠ c) :
    (s.setArmed c r).armedOn x = s.armedOn x := by simp [State.setArmed_armedOn, h]

/-! ### `setInput` -/
@[simp] theorem State.setInput_pending (c : InputNo) (r : InputRec) :
    (s.setInput c r).pending = s.pending := rfl
@[simp] theorem State.setInput_freeChoices (c : InputNo) (r : InputRec) :
    (s.setInput c r).freeChoices = s.freeChoices := rfl
@[simp] theorem State.setInput_inReset (c : InputNo) (r : InputRec) :
    (s.setInput c r).inReset = s.inReset := rfl
@[simp] theorem State.setInput_tb (c : InputNo) (r : InputRec) :
    (s.setInput c r).tb = s.tb := rfl
@[simp] theorem State.setInput_leaseClock (c : InputNo) (r : InputRec) :
    (s.setInput c r).leaseClock = s.leaseClock := rfl
@[simp] theorem State.setInput_lines (c : InputNo) (r : InputRec) :
    (s.setInput c r).lines = s.lines := rfl
@[simp] theorem State.setInput_pairs (c : InputNo) (r : InputRec) :
    (s.setInput c r).pairs = s.pairs := rfl
@[simp] theorem State.setInput_groups (c : InputNo) (r : InputRec) :
    (s.setInput c r).groups = s.groups := rfl
@[simp] theorem State.setInput_held (c : InputNo) (r : InputRec) :
    (s.setInput c r).held = s.held := rfl
@[simp] theorem State.setInput_waiting (c : InputNo) (r : InputRec) :
    (s.setInput c r).waiting = s.waiting := rfl
@[simp] theorem State.setInput_claimCounter (c : InputNo) (r : InputRec) :
    (s.setInput c r).claimCounter = s.claimCounter := rfl
@[simp] theorem State.setInput_slots (c : InputNo) (r : InputRec) :
    (s.setInput c r).slots = s.slots := rfl
@[simp] theorem State.setInput_schedule (c : InputNo) (r : InputRec) :
    (s.setInput c r).schedule = s.schedule := rfl
@[simp] theorem State.setInput_armed (c : InputNo) (r : InputRec) :
    (s.setInput c r).armed = s.armed := rfl
@[simp] theorem State.setInput_postSeq (c : InputNo) (r : InputRec) :
    (s.setInput c r).postSeq = s.postSeq := rfl
@[simp] theorem State.setInput_guardA (c : InputNo) (r : InputRec) :
    (s.setInput c r).guardA = s.guardA := rfl
@[simp] theorem State.setInput_guardB (c : InputNo) (r : InputRec) :
    (s.setInput c r).guardB = s.guardB := rfl
@[simp] theorem State.setInput_journal (c : InputNo) (r : InputRec) :
    (s.setInput c r).journal = s.journal := rfl
@[simp] theorem State.setInput_captureSeq (c : InputNo) (r : InputRec) :
    (s.setInput c r).captureSeq = s.captureSeq := rfl
@[simp] theorem State.setInput_journalLost (c : InputNo) (r : InputRec) :
    (s.setInput c r).journalLost = s.journalLost := rfl
@[simp] theorem State.setInput_stations (c : InputNo) (r : InputRec) :
    (s.setInput c r).stations = s.stations := rfl
@[simp] theorem State.setInput_ports (c : InputNo) (r : InputRec) :
    (s.setInput c r).ports = s.ports := rfl
@[simp] theorem State.setInput_rateDivisor (c : InputNo) (r : InputRec) :
    (s.setInput c r).rateDivisor = s.rateDivisor := rfl
@[simp] theorem State.setInput_line (c : InputNo) (r : InputRec) (x : LineNo) :
    (s.setInput c r).line x = s.line x := rfl
@[simp] theorem State.setInput_pair (c : InputNo) (r : InputRec) (x : PairNo) :
    (s.setInput c r).pair x = s.pair x := rfl
@[simp] theorem State.setInput_group (c : InputNo) (r : InputRec) (x : GroupNo) :
    (s.setInput c r).group x = s.group x := rfl
@[simp] theorem State.setInput_slot (c : InputNo) (r : InputRec) (x : SlotNo) :
    (s.setInput c r).slot x = s.slot x := rfl
@[simp] theorem State.setInput_order (c : InputNo) (r : InputRec) (x : SlotNo) :
    (s.setInput c r).order x = s.order x := rfl
@[simp] theorem State.setInput_armedOn (c : InputNo) (r : InputRec) (x : InputNo) :
    (s.setInput c r).armedOn x = s.armedOn x := rfl
@[simp] theorem State.setInput_lostOf (c : InputNo) (r : InputRec) (x : StationNo) :
    (s.setInput c r).lostOf x = s.lostOf x := rfl
@[simp] theorem State.setInput_station (c : InputNo) (r : InputRec) (x : StationNo) :
    (s.setInput c r).station x = s.station x := rfl
@[simp] theorem State.setInput_port (c : InputNo) (r : InputRec) (x : StationNo) :
    (s.setInput c r).port x = s.port x := rfl
@[simp] theorem State.setInput_input_self (c : InputNo) (r : InputRec) : (s.setInput c r).input c = r := by
  simp [State.setInput, State.input]
theorem State.setInput_input (c : InputNo) (r : InputRec) (x : InputNo) :
    (s.setInput c r).input x = if x = c then r else s.input x :=
  vector_get_set _ _ _ _
@[simp] theorem State.setInput_input_ne (c : InputNo) (r : InputRec) {x : InputNo} (h : x ≠ c) :
    (s.setInput c r).input x = s.input x := by simp [State.setInput_input, h]

/-! ### `setLost` -/
@[simp] theorem State.setLost_pending (n : StationNo) (r : Byte) :
    (s.setLost n r).pending = s.pending := rfl
@[simp] theorem State.setLost_freeChoices (n : StationNo) (r : Byte) :
    (s.setLost n r).freeChoices = s.freeChoices := rfl
@[simp] theorem State.setLost_inReset (n : StationNo) (r : Byte) :
    (s.setLost n r).inReset = s.inReset := rfl
@[simp] theorem State.setLost_tb (n : StationNo) (r : Byte) :
    (s.setLost n r).tb = s.tb := rfl
@[simp] theorem State.setLost_leaseClock (n : StationNo) (r : Byte) :
    (s.setLost n r).leaseClock = s.leaseClock := rfl
@[simp] theorem State.setLost_lines (n : StationNo) (r : Byte) :
    (s.setLost n r).lines = s.lines := rfl
@[simp] theorem State.setLost_pairs (n : StationNo) (r : Byte) :
    (s.setLost n r).pairs = s.pairs := rfl
@[simp] theorem State.setLost_groups (n : StationNo) (r : Byte) :
    (s.setLost n r).groups = s.groups := rfl
@[simp] theorem State.setLost_held (n : StationNo) (r : Byte) :
    (s.setLost n r).held = s.held := rfl
@[simp] theorem State.setLost_waiting (n : StationNo) (r : Byte) :
    (s.setLost n r).waiting = s.waiting := rfl
@[simp] theorem State.setLost_claimCounter (n : StationNo) (r : Byte) :
    (s.setLost n r).claimCounter = s.claimCounter := rfl
@[simp] theorem State.setLost_slots (n : StationNo) (r : Byte) :
    (s.setLost n r).slots = s.slots := rfl
@[simp] theorem State.setLost_schedule (n : StationNo) (r : Byte) :
    (s.setLost n r).schedule = s.schedule := rfl
@[simp] theorem State.setLost_armed (n : StationNo) (r : Byte) :
    (s.setLost n r).armed = s.armed := rfl
@[simp] theorem State.setLost_postSeq (n : StationNo) (r : Byte) :
    (s.setLost n r).postSeq = s.postSeq := rfl
@[simp] theorem State.setLost_guardA (n : StationNo) (r : Byte) :
    (s.setLost n r).guardA = s.guardA := rfl
@[simp] theorem State.setLost_guardB (n : StationNo) (r : Byte) :
    (s.setLost n r).guardB = s.guardB := rfl
@[simp] theorem State.setLost_inputs (n : StationNo) (r : Byte) :
    (s.setLost n r).inputs = s.inputs := rfl
@[simp] theorem State.setLost_journal (n : StationNo) (r : Byte) :
    (s.setLost n r).journal = s.journal := rfl
@[simp] theorem State.setLost_captureSeq (n : StationNo) (r : Byte) :
    (s.setLost n r).captureSeq = s.captureSeq := rfl
@[simp] theorem State.setLost_stations (n : StationNo) (r : Byte) :
    (s.setLost n r).stations = s.stations := rfl
@[simp] theorem State.setLost_ports (n : StationNo) (r : Byte) :
    (s.setLost n r).ports = s.ports := rfl
@[simp] theorem State.setLost_rateDivisor (n : StationNo) (r : Byte) :
    (s.setLost n r).rateDivisor = s.rateDivisor := rfl
@[simp] theorem State.setLost_line (n : StationNo) (r : Byte) (x : LineNo) :
    (s.setLost n r).line x = s.line x := rfl
@[simp] theorem State.setLost_pair (n : StationNo) (r : Byte) (x : PairNo) :
    (s.setLost n r).pair x = s.pair x := rfl
@[simp] theorem State.setLost_group (n : StationNo) (r : Byte) (x : GroupNo) :
    (s.setLost n r).group x = s.group x := rfl
@[simp] theorem State.setLost_slot (n : StationNo) (r : Byte) (x : SlotNo) :
    (s.setLost n r).slot x = s.slot x := rfl
@[simp] theorem State.setLost_order (n : StationNo) (r : Byte) (x : SlotNo) :
    (s.setLost n r).order x = s.order x := rfl
@[simp] theorem State.setLost_armedOn (n : StationNo) (r : Byte) (x : InputNo) :
    (s.setLost n r).armedOn x = s.armedOn x := rfl
@[simp] theorem State.setLost_input (n : StationNo) (r : Byte) (x : InputNo) :
    (s.setLost n r).input x = s.input x := rfl
@[simp] theorem State.setLost_station (n : StationNo) (r : Byte) (x : StationNo) :
    (s.setLost n r).station x = s.station x := rfl
@[simp] theorem State.setLost_port (n : StationNo) (r : Byte) (x : StationNo) :
    (s.setLost n r).port x = s.port x := rfl
@[simp] theorem State.setLost_lostOf_self (n : StationNo) (r : Byte) : (s.setLost n r).lostOf n = r := by
  simp [State.setLost, State.lostOf]
theorem State.setLost_lostOf (n : StationNo) (r : Byte) (x : StationNo) :
    (s.setLost n r).lostOf x = if x = n then r else s.lostOf x :=
  vector_get_set _ _ _ _
@[simp] theorem State.setLost_lostOf_ne (n : StationNo) (r : Byte) {x : StationNo} (h : x ≠ n) :
    (s.setLost n r).lostOf x = s.lostOf x := by simp [State.setLost_lostOf, h]

/-! ### `setStation` -/
@[simp] theorem State.setStation_pending (n : StationNo) (r : StationRec) :
    (s.setStation n r).pending = s.pending := rfl
@[simp] theorem State.setStation_freeChoices (n : StationNo) (r : StationRec) :
    (s.setStation n r).freeChoices = s.freeChoices := rfl
@[simp] theorem State.setStation_inReset (n : StationNo) (r : StationRec) :
    (s.setStation n r).inReset = s.inReset := rfl
@[simp] theorem State.setStation_tb (n : StationNo) (r : StationRec) :
    (s.setStation n r).tb = s.tb := rfl
@[simp] theorem State.setStation_leaseClock (n : StationNo) (r : StationRec) :
    (s.setStation n r).leaseClock = s.leaseClock := rfl
@[simp] theorem State.setStation_lines (n : StationNo) (r : StationRec) :
    (s.setStation n r).lines = s.lines := rfl
@[simp] theorem State.setStation_pairs (n : StationNo) (r : StationRec) :
    (s.setStation n r).pairs = s.pairs := rfl
@[simp] theorem State.setStation_groups (n : StationNo) (r : StationRec) :
    (s.setStation n r).groups = s.groups := rfl
@[simp] theorem State.setStation_held (n : StationNo) (r : StationRec) :
    (s.setStation n r).held = s.held := rfl
@[simp] theorem State.setStation_waiting (n : StationNo) (r : StationRec) :
    (s.setStation n r).waiting = s.waiting := rfl
@[simp] theorem State.setStation_claimCounter (n : StationNo) (r : StationRec) :
    (s.setStation n r).claimCounter = s.claimCounter := rfl
@[simp] theorem State.setStation_slots (n : StationNo) (r : StationRec) :
    (s.setStation n r).slots = s.slots := rfl
@[simp] theorem State.setStation_schedule (n : StationNo) (r : StationRec) :
    (s.setStation n r).schedule = s.schedule := rfl
@[simp] theorem State.setStation_armed (n : StationNo) (r : StationRec) :
    (s.setStation n r).armed = s.armed := rfl
@[simp] theorem State.setStation_postSeq (n : StationNo) (r : StationRec) :
    (s.setStation n r).postSeq = s.postSeq := rfl
@[simp] theorem State.setStation_guardA (n : StationNo) (r : StationRec) :
    (s.setStation n r).guardA = s.guardA := rfl
@[simp] theorem State.setStation_guardB (n : StationNo) (r : StationRec) :
    (s.setStation n r).guardB = s.guardB := rfl
@[simp] theorem State.setStation_inputs (n : StationNo) (r : StationRec) :
    (s.setStation n r).inputs = s.inputs := rfl
@[simp] theorem State.setStation_journal (n : StationNo) (r : StationRec) :
    (s.setStation n r).journal = s.journal := rfl
@[simp] theorem State.setStation_captureSeq (n : StationNo) (r : StationRec) :
    (s.setStation n r).captureSeq = s.captureSeq := rfl
@[simp] theorem State.setStation_journalLost (n : StationNo) (r : StationRec) :
    (s.setStation n r).journalLost = s.journalLost := rfl
@[simp] theorem State.setStation_ports (n : StationNo) (r : StationRec) :
    (s.setStation n r).ports = s.ports := rfl
@[simp] theorem State.setStation_rateDivisor (n : StationNo) (r : StationRec) :
    (s.setStation n r).rateDivisor = s.rateDivisor := rfl
@[simp] theorem State.setStation_line (n : StationNo) (r : StationRec) (x : LineNo) :
    (s.setStation n r).line x = s.line x := rfl
@[simp] theorem State.setStation_pair (n : StationNo) (r : StationRec) (x : PairNo) :
    (s.setStation n r).pair x = s.pair x := rfl
@[simp] theorem State.setStation_group (n : StationNo) (r : StationRec) (x : GroupNo) :
    (s.setStation n r).group x = s.group x := rfl
@[simp] theorem State.setStation_slot (n : StationNo) (r : StationRec) (x : SlotNo) :
    (s.setStation n r).slot x = s.slot x := rfl
@[simp] theorem State.setStation_order (n : StationNo) (r : StationRec) (x : SlotNo) :
    (s.setStation n r).order x = s.order x := rfl
@[simp] theorem State.setStation_armedOn (n : StationNo) (r : StationRec) (x : InputNo) :
    (s.setStation n r).armedOn x = s.armedOn x := rfl
@[simp] theorem State.setStation_input (n : StationNo) (r : StationRec) (x : InputNo) :
    (s.setStation n r).input x = s.input x := rfl
@[simp] theorem State.setStation_lostOf (n : StationNo) (r : StationRec) (x : StationNo) :
    (s.setStation n r).lostOf x = s.lostOf x := rfl
@[simp] theorem State.setStation_port (n : StationNo) (r : StationRec) (x : StationNo) :
    (s.setStation n r).port x = s.port x := rfl
@[simp] theorem State.setStation_station_self (n : StationNo) (r : StationRec) : (s.setStation n r).station n = r := by
  simp [State.setStation, State.station]
theorem State.setStation_station (n : StationNo) (r : StationRec) (x : StationNo) :
    (s.setStation n r).station x = if x = n then r else s.station x :=
  vector_get_set _ _ _ _
@[simp] theorem State.setStation_station_ne (n : StationNo) (r : StationRec) {x : StationNo} (h : x ≠ n) :
    (s.setStation n r).station x = s.station x := by simp [State.setStation_station, h]

/-! ### `setPort` -/
@[simp] theorem State.setPort_pending (n : StationNo) (r : PortRec) :
    (s.setPort n r).pending = s.pending := rfl
@[simp] theorem State.setPort_freeChoices (n : StationNo) (r : PortRec) :
    (s.setPort n r).freeChoices = s.freeChoices := rfl
@[simp] theorem State.setPort_inReset (n : StationNo) (r : PortRec) :
    (s.setPort n r).inReset = s.inReset := rfl
@[simp] theorem State.setPort_tb (n : StationNo) (r : PortRec) :
    (s.setPort n r).tb = s.tb := rfl
@[simp] theorem State.setPort_leaseClock (n : StationNo) (r : PortRec) :
    (s.setPort n r).leaseClock = s.leaseClock := rfl
@[simp] theorem State.setPort_lines (n : StationNo) (r : PortRec) :
    (s.setPort n r).lines = s.lines := rfl
@[simp] theorem State.setPort_pairs (n : StationNo) (r : PortRec) :
    (s.setPort n r).pairs = s.pairs := rfl
@[simp] theorem State.setPort_groups (n : StationNo) (r : PortRec) :
    (s.setPort n r).groups = s.groups := rfl
@[simp] theorem State.setPort_held (n : StationNo) (r : PortRec) :
    (s.setPort n r).held = s.held := rfl
@[simp] theorem State.setPort_waiting (n : StationNo) (r : PortRec) :
    (s.setPort n r).waiting = s.waiting := rfl
@[simp] theorem State.setPort_claimCounter (n : StationNo) (r : PortRec) :
    (s.setPort n r).claimCounter = s.claimCounter := rfl
@[simp] theorem State.setPort_slots (n : StationNo) (r : PortRec) :
    (s.setPort n r).slots = s.slots := rfl
@[simp] theorem State.setPort_schedule (n : StationNo) (r : PortRec) :
    (s.setPort n r).schedule = s.schedule := rfl
@[simp] theorem State.setPort_armed (n : StationNo) (r : PortRec) :
    (s.setPort n r).armed = s.armed := rfl
@[simp] theorem State.setPort_postSeq (n : StationNo) (r : PortRec) :
    (s.setPort n r).postSeq = s.postSeq := rfl
@[simp] theorem State.setPort_guardA (n : StationNo) (r : PortRec) :
    (s.setPort n r).guardA = s.guardA := rfl
@[simp] theorem State.setPort_guardB (n : StationNo) (r : PortRec) :
    (s.setPort n r).guardB = s.guardB := rfl
@[simp] theorem State.setPort_inputs (n : StationNo) (r : PortRec) :
    (s.setPort n r).inputs = s.inputs := rfl
@[simp] theorem State.setPort_journal (n : StationNo) (r : PortRec) :
    (s.setPort n r).journal = s.journal := rfl
@[simp] theorem State.setPort_captureSeq (n : StationNo) (r : PortRec) :
    (s.setPort n r).captureSeq = s.captureSeq := rfl
@[simp] theorem State.setPort_journalLost (n : StationNo) (r : PortRec) :
    (s.setPort n r).journalLost = s.journalLost := rfl
@[simp] theorem State.setPort_stations (n : StationNo) (r : PortRec) :
    (s.setPort n r).stations = s.stations := rfl
@[simp] theorem State.setPort_rateDivisor (n : StationNo) (r : PortRec) :
    (s.setPort n r).rateDivisor = s.rateDivisor := rfl
@[simp] theorem State.setPort_line (n : StationNo) (r : PortRec) (x : LineNo) :
    (s.setPort n r).line x = s.line x := rfl
@[simp] theorem State.setPort_pair (n : StationNo) (r : PortRec) (x : PairNo) :
    (s.setPort n r).pair x = s.pair x := rfl
@[simp] theorem State.setPort_group (n : StationNo) (r : PortRec) (x : GroupNo) :
    (s.setPort n r).group x = s.group x := rfl
@[simp] theorem State.setPort_slot (n : StationNo) (r : PortRec) (x : SlotNo) :
    (s.setPort n r).slot x = s.slot x := rfl
@[simp] theorem State.setPort_order (n : StationNo) (r : PortRec) (x : SlotNo) :
    (s.setPort n r).order x = s.order x := rfl
@[simp] theorem State.setPort_armedOn (n : StationNo) (r : PortRec) (x : InputNo) :
    (s.setPort n r).armedOn x = s.armedOn x := rfl
@[simp] theorem State.setPort_input (n : StationNo) (r : PortRec) (x : InputNo) :
    (s.setPort n r).input x = s.input x := rfl
@[simp] theorem State.setPort_lostOf (n : StationNo) (r : PortRec) (x : StationNo) :
    (s.setPort n r).lostOf x = s.lostOf x := rfl
@[simp] theorem State.setPort_station (n : StationNo) (r : PortRec) (x : StationNo) :
    (s.setPort n r).station x = s.station x := rfl
@[simp] theorem State.setPort_port_self (n : StationNo) (r : PortRec) : (s.setPort n r).port n = r := by
  simp [State.setPort, State.port]
theorem State.setPort_port (n : StationNo) (r : PortRec) (x : StationNo) :
    (s.setPort n r).port x = if x = n then r else s.port x :=
  vector_get_set _ _ _ _
@[simp] theorem State.setPort_port_ne (n : StationNo) (r : PortRec) {x : StationNo} (h : x ≠ n) :
    (s.setPort n r).port x = s.port x := by simp [State.setPort_port, h]

/-! ### `setTb` -/
@[simp] theorem State.setTb_pending (r : Timebase) :
    (s.setTb r).pending = s.pending := rfl
@[simp] theorem State.setTb_freeChoices (r : Timebase) :
    (s.setTb r).freeChoices = s.freeChoices := rfl
@[simp] theorem State.setTb_inReset (r : Timebase) :
    (s.setTb r).inReset = s.inReset := rfl
@[simp] theorem State.setTb_tb (r : Timebase) :
    (s.setTb r).tb = r := rfl
@[simp] theorem State.setTb_leaseClock (r : Timebase) :
    (s.setTb r).leaseClock = s.leaseClock := rfl
@[simp] theorem State.setTb_lines (r : Timebase) :
    (s.setTb r).lines = s.lines := rfl
@[simp] theorem State.setTb_pairs (r : Timebase) :
    (s.setTb r).pairs = s.pairs := rfl
@[simp] theorem State.setTb_groups (r : Timebase) :
    (s.setTb r).groups = s.groups := rfl
@[simp] theorem State.setTb_held (r : Timebase) :
    (s.setTb r).held = s.held := rfl
@[simp] theorem State.setTb_waiting (r : Timebase) :
    (s.setTb r).waiting = s.waiting := rfl
@[simp] theorem State.setTb_claimCounter (r : Timebase) :
    (s.setTb r).claimCounter = s.claimCounter := rfl
@[simp] theorem State.setTb_slots (r : Timebase) :
    (s.setTb r).slots = s.slots := rfl
@[simp] theorem State.setTb_schedule (r : Timebase) :
    (s.setTb r).schedule = s.schedule := rfl
@[simp] theorem State.setTb_armed (r : Timebase) :
    (s.setTb r).armed = s.armed := rfl
@[simp] theorem State.setTb_postSeq (r : Timebase) :
    (s.setTb r).postSeq = s.postSeq := rfl
@[simp] theorem State.setTb_guardA (r : Timebase) :
    (s.setTb r).guardA = s.guardA := rfl
@[simp] theorem State.setTb_guardB (r : Timebase) :
    (s.setTb r).guardB = s.guardB := rfl
@[simp] theorem State.setTb_inputs (r : Timebase) :
    (s.setTb r).inputs = s.inputs := rfl
@[simp] theorem State.setTb_journal (r : Timebase) :
    (s.setTb r).journal = s.journal := rfl
@[simp] theorem State.setTb_captureSeq (r : Timebase) :
    (s.setTb r).captureSeq = s.captureSeq := rfl
@[simp] theorem State.setTb_journalLost (r : Timebase) :
    (s.setTb r).journalLost = s.journalLost := rfl
@[simp] theorem State.setTb_stations (r : Timebase) :
    (s.setTb r).stations = s.stations := rfl
@[simp] theorem State.setTb_ports (r : Timebase) :
    (s.setTb r).ports = s.ports := rfl
@[simp] theorem State.setTb_rateDivisor (r : Timebase) :
    (s.setTb r).rateDivisor = s.rateDivisor := rfl
@[simp] theorem State.setTb_line (r : Timebase) (x : LineNo) :
    (s.setTb r).line x = s.line x := rfl
@[simp] theorem State.setTb_pair (r : Timebase) (x : PairNo) :
    (s.setTb r).pair x = s.pair x := rfl
@[simp] theorem State.setTb_group (r : Timebase) (x : GroupNo) :
    (s.setTb r).group x = s.group x := rfl
@[simp] theorem State.setTb_slot (r : Timebase) (x : SlotNo) :
    (s.setTb r).slot x = s.slot x := rfl
@[simp] theorem State.setTb_order (r : Timebase) (x : SlotNo) :
    (s.setTb r).order x = s.order x := rfl
@[simp] theorem State.setTb_armedOn (r : Timebase) (x : InputNo) :
    (s.setTb r).armedOn x = s.armedOn x := rfl
@[simp] theorem State.setTb_input (r : Timebase) (x : InputNo) :
    (s.setTb r).input x = s.input x := rfl
@[simp] theorem State.setTb_lostOf (r : Timebase) (x : StationNo) :
    (s.setTb r).lostOf x = s.lostOf x := rfl
@[simp] theorem State.setTb_station (r : Timebase) (x : StationNo) :
    (s.setTb r).station x = s.station x := rfl
@[simp] theorem State.setTb_port (r : Timebase) (x : StationNo) :
    (s.setTb r).port x = s.port x := rfl

/-! ### `setPending` -/
@[simp] theorem State.setPending_pending (r : List Instr) :
    (s.setPending r).pending = r := rfl
@[simp] theorem State.setPending_freeChoices (r : List Instr) :
    (s.setPending r).freeChoices = s.freeChoices := rfl
@[simp] theorem State.setPending_inReset (r : List Instr) :
    (s.setPending r).inReset = s.inReset := rfl
@[simp] theorem State.setPending_tb (r : List Instr) :
    (s.setPending r).tb = s.tb := rfl
@[simp] theorem State.setPending_leaseClock (r : List Instr) :
    (s.setPending r).leaseClock = s.leaseClock := rfl
@[simp] theorem State.setPending_lines (r : List Instr) :
    (s.setPending r).lines = s.lines := rfl
@[simp] theorem State.setPending_pairs (r : List Instr) :
    (s.setPending r).pairs = s.pairs := rfl
@[simp] theorem State.setPending_groups (r : List Instr) :
    (s.setPending r).groups = s.groups := rfl
@[simp] theorem State.setPending_held (r : List Instr) :
    (s.setPending r).held = s.held := rfl
@[simp] theorem State.setPending_waiting (r : List Instr) :
    (s.setPending r).waiting = s.waiting := rfl
@[simp] theorem State.setPending_claimCounter (r : List Instr) :
    (s.setPending r).claimCounter = s.claimCounter := rfl
@[simp] theorem State.setPending_slots (r : List Instr) :
    (s.setPending r).slots = s.slots := rfl
@[simp] theorem State.setPending_schedule (r : List Instr) :
    (s.setPending r).schedule = s.schedule := rfl
@[simp] theorem State.setPending_armed (r : List Instr) :
    (s.setPending r).armed = s.armed := rfl
@[simp] theorem State.setPending_postSeq (r : List Instr) :
    (s.setPending r).postSeq = s.postSeq := rfl
@[simp] theorem State.setPending_guardA (r : List Instr) :
    (s.setPending r).guardA = s.guardA := rfl
@[simp] theorem State.setPending_guardB (r : List Instr) :
    (s.setPending r).guardB = s.guardB := rfl
@[simp] theorem State.setPending_inputs (r : List Instr) :
    (s.setPending r).inputs = s.inputs := rfl
@[simp] theorem State.setPending_journal (r : List Instr) :
    (s.setPending r).journal = s.journal := rfl
@[simp] theorem State.setPending_captureSeq (r : List Instr) :
    (s.setPending r).captureSeq = s.captureSeq := rfl
@[simp] theorem State.setPending_journalLost (r : List Instr) :
    (s.setPending r).journalLost = s.journalLost := rfl
@[simp] theorem State.setPending_stations (r : List Instr) :
    (s.setPending r).stations = s.stations := rfl
@[simp] theorem State.setPending_ports (r : List Instr) :
    (s.setPending r).ports = s.ports := rfl
@[simp] theorem State.setPending_rateDivisor (r : List Instr) :
    (s.setPending r).rateDivisor = s.rateDivisor := rfl
@[simp] theorem State.setPending_line (r : List Instr) (x : LineNo) :
    (s.setPending r).line x = s.line x := rfl
@[simp] theorem State.setPending_pair (r : List Instr) (x : PairNo) :
    (s.setPending r).pair x = s.pair x := rfl
@[simp] theorem State.setPending_group (r : List Instr) (x : GroupNo) :
    (s.setPending r).group x = s.group x := rfl
@[simp] theorem State.setPending_slot (r : List Instr) (x : SlotNo) :
    (s.setPending r).slot x = s.slot x := rfl
@[simp] theorem State.setPending_order (r : List Instr) (x : SlotNo) :
    (s.setPending r).order x = s.order x := rfl
@[simp] theorem State.setPending_armedOn (r : List Instr) (x : InputNo) :
    (s.setPending r).armedOn x = s.armedOn x := rfl
@[simp] theorem State.setPending_input (r : List Instr) (x : InputNo) :
    (s.setPending r).input x = s.input x := rfl
@[simp] theorem State.setPending_lostOf (r : List Instr) (x : StationNo) :
    (s.setPending r).lostOf x = s.lostOf x := rfl
@[simp] theorem State.setPending_station (r : List Instr) (x : StationNo) :
    (s.setPending r).station x = s.station x := rfl
@[simp] theorem State.setPending_port (r : List Instr) (x : StationNo) :
    (s.setPending r).port x = s.port x := rfl

/-! ### Writing a record back, and writing it twice -/

theorem vector_set_get {α : Type} {n : Nat} (v : Vector α n) (i : Fin n) : v.set i v[i] = v := by
  simp

@[simp] theorem State.setLine_self_same (s : State) (i : LineNo) : s.setLine i (s.line i) = s := by
  simp [State.setLine, State.line]

@[simp] theorem State.setLine_setLine (s : State) (i : LineNo) (x y : LineRec) :
    (s.setLine i x).setLine i y = s.setLine i y := by
  simp [State.setLine]

@[simp] theorem State.setPair_self_same (s : State) (i : PairNo) : s.setPair i (s.pair i) = s := by
  simp [State.setPair, State.pair]

@[simp] theorem State.setPair_setPair (s : State) (i : PairNo) (x y : PairUnit) :
    (s.setPair i x).setPair i y = s.setPair i y := by
  simp [State.setPair]

@[simp] theorem State.setGroup_self_same (s : State) (i : GroupNo) : s.setGroup i (s.group i) = s := by
  simp [State.setGroup, State.group]

@[simp] theorem State.setGroup_setGroup (s : State) (i : GroupNo) (x y : GroupRec) :
    (s.setGroup i x).setGroup i y = s.setGroup i y := by
  simp [State.setGroup]

@[simp] theorem State.setSlot_self_same (s : State) (i : SlotNo) : s.setSlot i (s.slot i) = s := by
  simp [State.setSlot, State.slot]

@[simp] theorem State.setSlot_setSlot (s : State) (i : SlotNo) (x y : Slot) :
    (s.setSlot i x).setSlot i y = s.setSlot i y := by
  simp [State.setSlot]

@[simp] theorem State.setArmed_self_same (s : State) (i : InputNo) : s.setArmed i (s.armedOn i) = s := by
  simp [State.setArmed, State.armedOn]

@[simp] theorem State.setArmed_setArmed (s : State) (i : InputNo) (x y : List SlotNo) :
    (s.setArmed i x).setArmed i y = s.setArmed i y := by
  simp [State.setArmed]

@[simp] theorem State.setInput_self_same (s : State) (i : InputNo) : s.setInput i (s.input i) = s := by
  simp [State.setInput, State.input]

@[simp] theorem State.setInput_setInput (s : State) (i : InputNo) (x y : InputRec) :
    (s.setInput i x).setInput i y = s.setInput i y := by
  simp [State.setInput]

@[simp] theorem State.setLost_self_same (s : State) (i : StationNo) : s.setLost i (s.lostOf i) = s := by
  simp [State.setLost, State.lostOf]

@[simp] theorem State.setLost_setLost (s : State) (i : StationNo) (x y : Byte) :
    (s.setLost i x).setLost i y = s.setLost i y := by
  simp [State.setLost]

@[simp] theorem State.setStation_self_same (s : State) (i : StationNo) : s.setStation i (s.station i) = s := by
  simp [State.setStation, State.station]

@[simp] theorem State.setStation_setStation (s : State) (i : StationNo) (x y : StationRec) :
    (s.setStation i x).setStation i y = s.setStation i y := by
  simp [State.setStation]

@[simp] theorem State.setPort_self_same (s : State) (i : StationNo) : s.setPort i (s.port i) = s := by
  simp [State.setPort, State.port]

@[simp] theorem State.setPort_setPort (s : State) (i : StationNo) (x y : PortRec) :
    (s.setPort i x).setPort i y = s.setPort i y := by
  simp [State.setPort]

end Sys2Proof.Machine
end

