-- ==== Sys2Proof/Laws/Frames.lean ====
section
/-! SUPPORT. Frames: the relations "only these parts of the state differ", what each shared operation may change, and
the lemmas that chain them. A frame is an equation between states, so every field it does not name is unchanged. -/

namespace Sys2Proof.Machine

/-! ### The relations -/

/-- Only the port records differ. -/
def OnlyPorts (s t : State) : Prop := t = { s with ports := t.ports }

/-- Only line records and pair units differ. -/
def OnlyLines (s t : State) : Prop := t = { s with lines := t.lines, pairs := t.pairs }

/-- Only line records, pair units, the order store, the schedule list, the armed set and ports differ. -/
def OnlyOrders (s t : State) : Prop :=
  t = { s with
    lines := t.lines, pairs := t.pairs, slots := t.slots, schedule := t.schedule, armed := t.armed
    ports := t.ports }

/-- Only line records, pair units, the claim lists and ports differ. -/
def OnlyClaims (s t : State) : Prop :=
  t = { s with
    lines := t.lines, pairs := t.pairs, held := t.held, waiting := t.waiting, ports := t.ports }

/-- Only the capture unit's records, and what its triggers reach, differ. -/
def OnlyCapture (s t : State) : Prop :=
  t = { s with
    lines := t.lines, pairs := t.pairs, slots := t.slots, schedule := t.schedule, armed := t.armed
    ports := t.ports, inputs := t.inputs, journal := t.journal, captureSeq := t.captureSeq
    journalLost := t.journalLost }

/-- Only line records, pair units, group records and ports differ. -/
def OnlyGroups (s t : State) : Prop :=
  t = { s with lines := t.lines, pairs := t.pairs, groups := t.groups, ports := t.ports }

theorem OnlyPorts.refl (s : State) : OnlyPorts s s := rfl
theorem OnlyLines.refl (s : State) : OnlyLines s s := rfl
theorem OnlyOrders.refl (s : State) : OnlyOrders s s := rfl
theorem OnlyClaims.refl (s : State) : OnlyClaims s s := rfl
theorem OnlyCapture.refl (s : State) : OnlyCapture s s := rfl
theorem OnlyGroups.refl (s : State) : OnlyGroups s s := rfl

theorem OnlyPorts.trans {s t u : State} (a : OnlyPorts s t) (b : OnlyPorts t u) :
    OnlyPorts s u := by
  rw [OnlyPorts] at a b; rw [OnlyPorts, b, a]

theorem OnlyLines.trans {s t u : State} (a : OnlyLines s t) (b : OnlyLines t u) :
    OnlyLines s u := by
  rw [OnlyLines] at a b; rw [OnlyLines, b, a]

theorem OnlyOrders.trans {s t u : State} (a : OnlyOrders s t) (b : OnlyOrders t u) :
    OnlyOrders s u := by
  rw [OnlyOrders] at a b; rw [OnlyOrders, b, a]

theorem OnlyClaims.trans {s t u : State} (a : OnlyClaims s t) (b : OnlyClaims t u) :
    OnlyClaims s u := by
  rw [OnlyClaims] at a b; rw [OnlyClaims, b, a]

theorem OnlyCapture.trans {s t u : State} (a : OnlyCapture s t) (b : OnlyCapture t u) :
    OnlyCapture s u := by
  rw [OnlyCapture] at a b; rw [OnlyCapture, b, a]

theorem OnlyGroups.trans {s t u : State} (a : OnlyGroups s t) (b : OnlyGroups t u) :
    OnlyGroups s u := by
  rw [OnlyGroups] at a b; rw [OnlyGroups, b, a]

theorem OnlyPorts.toOrders {s t : State} (a : OnlyPorts s t) : OnlyOrders s t := by
  rw [OnlyPorts] at a; rw [OnlyOrders, a]

theorem OnlyPorts.toClaims {s t : State} (a : OnlyPorts s t) : OnlyClaims s t := by
  rw [OnlyPorts] at a; rw [OnlyClaims, a]

theorem OnlyPorts.toGroups {s t : State} (a : OnlyPorts s t) : OnlyGroups s t := by
  rw [OnlyPorts] at a; rw [OnlyGroups, a]

theorem OnlyLines.toOrders {s t : State} (a : OnlyLines s t) : OnlyOrders s t := by
  rw [OnlyLines] at a; rw [OnlyOrders, a]

theorem OnlyLines.toClaims {s t : State} (a : OnlyLines s t) : OnlyClaims s t := by
  rw [OnlyLines] at a; rw [OnlyClaims, a]

theorem OnlyLines.toGroups {s t : State} (a : OnlyLines s t) : OnlyGroups s t := by
  rw [OnlyLines] at a; rw [OnlyGroups, a]

theorem OnlyOrders.toCapture {s t : State} (a : OnlyOrders s t) : OnlyCapture s t := by
  rw [OnlyOrders] at a; rw [OnlyCapture, a]

theorem OnlyPorts.toCapture {s t : State} (a : OnlyPorts s t) : OnlyCapture s t := a.toOrders.toCapture

/-- A frame relation that each step of a fold keeps holds of the whole fold. -/
theorem foldl_frame {α : Type} {R : State → State → Prop} (refl : ∀ s, R s s)
    (trans : ∀ {s t u}, R s t → R t u → R s u) {f : State → α → State}
    (step : ∀ s x, R s (f s x)) : ∀ (l : List α) (s : State), R s (l.foldl f s)
  | [], s => refl s
  | x :: l, s => trans (step s x) (foldl_frame refl trans step l (f s x))

/-! ### Notices -/

theorem transmitChoice_frame (s : State) (n : StationNo) : OnlyPorts s (s.transmitChoice n) := rfl

theorem appendNotice_frame (s : State) (n : StationNo) (x : Notice) :
    OnlyPorts s (s.appendNotice n x) := by
  unfold State.appendNotice; split
  · exact OnlyPorts.trans (t := s.setPort n _) rfl (transmitChoice_frame _ n)
  · rfl

theorem appendNotices_frame (s : State) (who : StationNo → Bool) (x : Notice) :
    OnlyPorts s (s.appendNotices who x) :=
  foldl_frame OnlyPorts.refl OnlyPorts.trans (fun s n => appendNotice_frame s n x) _ s

/-! ### Lines -/

theorem setAsserted_frame (s : State) (l : LineNo) (a : Bool) : OnlyLines s (s.setAsserted l a) := rfl

theorem setPairState_frame (s : State) (k : PairNo) (x : PairState) :
    OnlyLines s (s.setPairState k x) := rfl

theorem setFromLevels_frame (s : State) (k : PairNo) : OnlyLines s (s.setFromLevels k) := rfl

theorem turnToPrimary_frame (s : State) (k : PairNo) : OnlyLines s (s.turnToPrimary k) := by
  unfold State.turnToPrimary; split <;> rfl

theorem turnToPartner_frame (s : State) (k : PairNo) : OnlyLines s (s.turnToPartner k) := by
  unfold State.turnToPartner; split <;> rfl

theorem pairAssert_frame (s : State) (k : PairNo) : OnlyLines s (s.pairAssert k) := by
  unfold State.pairAssert; split <;> first | rfl | exact turnToPrimary_frame s k

theorem pairDeassert_frame (s : State) (k : PairNo) : OnlyLines s (s.pairDeassert k) := by
  unfold State.pairDeassert; split <;> first | rfl | exact turnToPartner_frame s k

theorem pairCommand_frame (s : State) (k : PairNo) (c : LineCommand) :
    OnlyLines s (s.pairCommand k c) := by
  unfold State.pairCommand
  repeat' split
  all_goals first | exact pairAssert_frame s k | exact pairDeassert_frame s k

theorem command_frame (s : State) (l : LineNo) (c : LineCommand) : OnlyLines s (s.command l c) := by
  unfold State.command
  repeat' split
  · exact pairCommand_frame s _ c
  · rfl
  · rfl

theorem completeGap_frame (s : State) (k : PairNo) : OnlyLines s (s.completeGap k) := by
  unfold State.completeGap
  repeat' split
  all_goals rfl

theorem completeGaps_frame (s : State) : OnlyLines s s.completeGaps :=
  foldl_frame OnlyLines.refl OnlyLines.trans completeGap_frame _ s

theorem safeDeassert_frame (s : State) (l : LineNo) : OnlyLines s (s.safeDeassert l) := by
  unfold State.safeDeassert; split <;> rfl

theorem safeAssert_frame (s : State) (l : LineNo) : OnlyLines s (s.safeAssert l) := by
  unfold State.safeAssert; split <;> rfl

theorem safePair_frame (s : State) (k : PairNo) : OnlyLines s (s.safePair k) :=
  ((((safeDeassert_frame s _).trans (safeDeassert_frame _ _)).trans (safeAssert_frame _ _)).trans
    (safeAssert_frame _ _)).trans (setFromLevels_frame _ k)

theorem toSafe_frame (s : State) (l : LineNo) : OnlyLines s (s.toSafe l) := by
  unfold State.toSafe; split
  · exact safePair_frame s _
  · rfl

theorem applyAction_frame (s : State) (m : LineMask) (a : LineAction) :
    OnlyLines s (s.applyAction m a) := by
  cases a
  · rfl
  · exact foldl_frame OnlyLines.refl OnlyLines.trans toSafe_frame _ s

theorem tripGroup_frame (s : State) (g : GroupNo) : OnlyGroups s (s.tripGroup g) :=
  OnlyGroups.trans (t := s.setGroup g _) rfl
    (foldl_frame OnlyLines.refl OnlyLines.trans toSafe_frame _ _).toGroups

theorem tripNotices_frame (s : State) (g : GroupNo) (i : GuardInput) :
    OnlyPorts s (s.tripNotices g i) := appendNotices_frame s _ _

/-! ### Orders -/

theorem placeOrder_frame (s : State) (i : SlotNo) (o : Order) : OnlyOrders s (s.placeOrder i o) := rfl

theorem setOrder_frame (s : State) (i : SlotNo) (o : Order) : OnlyOrders s (s.setOrder i o) := rfl

theorem removeOrder_frame (s : State) (i : SlotNo) : OnlyOrders s (s.removeOrder i) := rfl

theorem removeOrders_frame (s : State) (l : List SlotNo) : OnlyOrders s (s.removeOrders l) :=
  foldl_frame OnlyOrders.refl OnlyOrders.trans removeOrder_frame l s

theorem fired_frame (s : State) (cause : EdgeCause) (h : Handle) (o : Order) :
    OnlyPorts s (s.fired cause h o) := by
  unfold State.fired; split
  · exact appendNotice_frame s _ _
  · rfl

theorem ended_frame (s : State) (h : Handle) (o : Order) (r : EndReason) :
    OnlyPorts s (s.ended h o r) := by
  unfold State.ended; split
  · exact appendNotice_frame s _ _
  · rfl

theorem suppress_frame (s : State) (i : SlotNo) (o : Order) : OnlyOrders s (s.suppress i o) :=
  (removeOrder_frame s i).trans (appendNotice_frame _ _ _).toOrders

theorem edgeCommand_frame (s : State) (cause : EdgeCause) (l : LineNo) (c : LineCommand) :
    OnlyLines s (s.edgeCommand cause l c) := by
  cases cause
  · exact (completeGap_frame s _).trans (command_frame _ l c)
  · exact command_frame s l c
  · exact command_frame s l c

theorem patternCommands_frame (s : State) (cause : EdgeCause) (g : GroupNo)
    (mask levels : BitVec 4) : OnlyLines s (s.patternCommands cause g mask levels) := by
  apply foldl_frame OnlyLines.refl OnlyLines.trans
  intro s j
  split
  · exact edgeCommand_frame s _ _ _
  · rfl

/-- The shape of an edge that drives a line, takes the order out and tells of it. -/
theorem edge_remove_frame {s t u : State} {i : SlotNo} (a : OnlyLines s t)
    (b : OnlyPorts (t.removeOrder i) u) : OnlyOrders s u :=
  (a.toOrders.trans (removeOrder_frame t i)).trans b.toOrders

/-- The shape of an edge that drives a line, places the order again and tells of it. -/
theorem edge_place_frame {s t u : State} {i : SlotNo} {o : Order} (a : OnlyLines s t)
    (b : OnlyPorts (t.placeOrder i o) u) : OnlyOrders s u :=
  (a.toOrders.trans (placeOrder_frame t i o)).trans b.toOrders

theorem fireStep_frame (s : State) (cause : EdgeCause) (i : SlotNo) (o : Order) (l : LineNo)
    (a : StepAction) : OnlyOrders s (s.fireStep cause i o l a) := by
  unfold State.fireStep; split
  · exact edge_remove_frame (edgeCommand_frame s cause l _) (fired_frame _ _ _ _)
  · exact suppress_frame s i o

theorem firePattern_frame (s : State) (cause : EdgeCause) (i : SlotNo) (o : Order) (g : GroupNo)
    (mask levels : BitVec 4) : OnlyOrders s (s.firePattern cause i o g mask levels) := by
  unfold State.firePattern; split
  · exact edge_remove_frame (patternCommands_frame s cause g mask levels) (fired_frame _ _ _ _)
  · exact suppress_frame s i o

theorem firePulseLeading_frame (s : State) (cause : EdgeCause) (i : SlotNo) (o : Order)
    (l : LineNo) (w : Span) : OnlyOrders s (s.firePulseLeading cause i o l w) := by
  unfold State.firePulseLeading; split
  · exact edge_place_frame (edgeCommand_frame s cause l _) (fired_frame _ _ _ _)
  · exact suppress_frame s i o

theorem firePulseTrailing_frame (s : State) (cause : EdgeCause) (i : SlotNo) (o : Order)
    (l : LineNo) : OnlyOrders s (s.firePulseTrailing cause i o l) := by
  unfold State.firePulseTrailing; split
  · exact edge_remove_frame (edgeCommand_frame s cause l _) (ended_frame _ _ _ _)
  · exact suppress_frame s i o

theorem endTrain_frame (s : State) (cause : EdgeCause) (i : SlotNo) (o : Order) (l : LineNo)
    (r : EndReason) : OnlyOrders s (s.endTrain cause i o l r) := by
  unfold State.endTrain; split
  · exact edge_remove_frame (edgeCommand_frame s cause l _) (ended_frame _ _ _ _)
  · exact edge_remove_frame (OnlyLines.refl s) (appendNotice_frame _ _ _)

theorem widthStep_frame (s : State) (cause : EdgeCause) (i : SlotNo) (o : Order) (l : LineNo)
    (x : TrainRec) : OnlyOrders s (s.widthStep cause i o l x) := by
  unfold State.widthStep; dsimp only; split
  · exact edge_place_frame (edgeCommand_frame s cause l _) (fired_frame _ _ _ _)
  · exact placeOrder_frame s i _

theorem periodStart_frame (s : State) (cause : EdgeCause) (i : SlotNo) (o : Order) (l : LineNo)
    (x : TrainRec) : OnlyOrders s (s.periodStart cause i o l x) := by
  unfold State.periodStart
  split
  · exact endTrain_frame s cause i o l _
  · split
    · exact endTrain_frame s cause i o l _
    · exact widthStep_frame s cause i o l _

theorem trainTrailing_frame (s : State) (cause : EdgeCause) (i : SlotNo) (o : Order) (l : LineNo)
    (x : TrainRec) : OnlyOrders s (s.trainTrailing cause i o l x) :=
  edge_place_frame (edgeCommand_frame s cause l _) (OnlyPorts.refl _)

theorem fireEdge_frame (s : State) (cause : EdgeCause) (i : SlotNo) (o : Order) :
    OnlyOrders s (s.fireEdge cause i o) := by
  unfold State.fireEdge
  split
  · exact fireStep_frame s cause i o _ _
  · exact firePattern_frame s cause i o _ _ _
  · split
    · exact firePulseTrailing_frame s cause i o _
    all_goals exact firePulseLeading_frame s cause i o _ _
  · split
    · exact trainTrailing_frame s cause i o _ _
    all_goals exact periodStart_frame s cause i o _ _

theorem fireDueSlot_frame (s : State) (i : SlotNo) : OnlyOrders s (s.fireDueSlot i) := by
  unfold State.fireDueSlot
  repeat' split
  · exact fireEdge_frame s _ _ _
  · rfl
  · rfl

theorem fireDue_frame (s : State) : OnlyOrders s s.fireDue :=
  foldl_frame OnlyOrders.refl OnlyOrders.trans fireDueSlot_frame _ s

theorem cancelOrder_frame (s : State) (i : SlotNo) : OnlyOrders s (s.cancelOrder i) := by
  unfold State.cancelOrder
  repeat' split
  · rfl
  · exact (command_frame s _ _).toOrders.trans (removeOrder_frame _ i)
  · exact removeOrder_frame s i

/-! ### Claims -/

theorem freeLine_frame (s : State) (l : LineNo) : OnlyLines s (s.freeLine l) := rfl

theorem grantLine_frame (id : Byte) (s : State) (l : LineNo) : OnlyLines s (s.grantLine id l) := rfl

theorem grant_frame (s : State) (c : Claim) : OnlyClaims s (s.grant c) :=
  OnlyClaims.trans (t := { s with held := s.held ++ [c] }) rfl
    (foldl_frame OnlyLines.refl OnlyLines.trans (grantLine_frame c.id) _ _).toClaims

theorem grantWalk_frame : ∀ (todo kept : List WaitingClaim) (s : State),
    OnlyClaims s (s.grantWalk kept todo).1
  | [], kept, s => rfl
  | w :: rest, kept, s => by
    unfold State.grantWalk; split
    · exact ((grant_frame s w.claim).trans (appendNotice_frame _ _ _).toClaims).trans
        (grantWalk_frame rest kept _)
    · exact grantWalk_frame rest (kept ++ [w]) s

theorem grantScanFrom_frame : ∀ (fuel : Nat) (s : State), OnlyClaims s (s.grantScanFrom fuel)
  | 0, s => rfl
  | fuel + 1, s => by
    have h : OnlyClaims s { (s.grantWalk [] s.waiting).1 with
        waiting := (s.grantWalk [] s.waiting).2.1 } :=
      OnlyClaims.trans (grantWalk_frame s.waiting [] s) rfl
    unfold State.grantScanFrom
    dsimp only
    split
    · exact h.trans (grantScanFrom_frame fuel _)
    · exact h

theorem grantScan_frame (s : State) : OnlyClaims s s.grantScan := grantScanFrom_frame _ s

theorem giveUp_frame (s : State) (c : Claim) (a : LineAction) : OnlyClaims s (s.giveUp c a) :=
  OnlyClaims.trans
    ((applyAction_frame s c.lines a).trans
      (foldl_frame OnlyLines.refl OnlyLines.trans freeLine_frame (linesOf c.lines) _)).toClaims rfl

theorem claimTeardown_frame (s : State) (n : StationNo) : OnlyClaims s (s.claimTeardown n) := by
  unfold State.claimTeardown
  refine OnlyClaims.trans ?_ (grantScan_frame _)
  exact OnlyClaims.trans
    (foldl_frame OnlyClaims.refl OnlyClaims.trans (fun s (c : Claim) => giveUp_frame s c c.loss)
      (s.held.filter fun c => c.station == n) s) rfl

/-! ### Capture -/

theorem headRemoval_frame (s : State) : OnlyCapture s s.headRemoval := rfl

theorem countLost_frame (s : State) (r : StationSet) : OnlyCapture s (s.countLost r) := by
  apply foldl_frame OnlyCapture.refl OnlyCapture.trans
  intro s n; rfl

theorem makeRoom_frame (s : State) : OnlyCapture s s.makeRoom := by
  unfold State.makeRoom
  repeat' split
  · rfl
  · rfl
  · rename_i r rest _
    exact (OnlyCapture.trans (t := { s with journal := rest }) rfl (countLost_frame _ _)).trans
      (headRemoval_frame _)

theorem appendRecord_frame (s : State) (c : InputNo) (d : Direction) (e : Time) :
    OnlyCapture s (s.appendRecord c d e) := rfl

theorem trigger_frame (e : Time) (s : State) (i : SlotNo) : OnlyOrders s (s.trigger e i) := by
  unfold State.trigger
  repeat' split
  all_goals
    first
    | rfl
    | exact (removeOrder_frame s i).trans (appendNotice_frame _ _ _).toOrders
    | exact ((fireDue_frame s).trans (setOrder_frame _ i _)).trans (fireEdge_frame _ _ _ _)

theorem triggerAll_frame (s : State) (c : InputNo) (e : Time) : OnlyOrders s (s.triggerAll c e) :=
  OnlyOrders.trans (t := s.setArmed c []) rfl
    (foldl_frame OnlyOrders.refl OnlyOrders.trans (trigger_frame e) _ _)

theorem accept_frame (s : State) (c : InputNo) (d : Direction) (e : Time) :
    OnlyCapture s (s.accept c d e) :=
  (((makeRoom_frame s).trans (appendRecord_frame _ c d e)).trans
    (appendNotices_frame _ _ _).toCapture).trans (triggerAll_frame _ c e).toCapture

theorem setInputState_frame (s : State) (c : InputNo) (x : InputState) :
    OnlyCapture s (s.setInputState c x) := rfl

theorem sample_frame (s : State) (c : InputNo) (level : Level) : OnlyCapture s (s.sample c level) := by
  unfold State.sample State.transition State.filterSample
  repeat' split
  all_goals first | rfl | exact OnlyCapture.trans (setInputState_frame s c _) (accept_frame _ _ _ _)

/-! ### Replies -/

theorem dequeue_frame (s : State) (p : StationNo) : OnlyPorts s (s.dequeue p) := rfl

theorem answer_frame (s : State) (p : StationNo) (f : RequestFrame) (c : ReplyCode)
    (payload : List Byte) : OnlyPorts s (s.answer p f c payload) := rfl

theorem portTeardown_frame (s : State) (n : StationNo) (keep : Bool) :
    OnlyPorts s (s.portTeardown n keep) := rfl

end Sys2Proof.Machine
end

