-- ==== Sys2Proof/Laws/FrameFields.lean ====
section
/-! SUPPORT. What a frame says of each field and record: those the frame does not name are as before. -/

namespace Sys2Proof.Machine

variable {s t : State}

/-! ### `OnlyPorts` -/

theorem OnlyPorts.pending (h : OnlyPorts s t) : t.pending = s.pending := by
  rw [OnlyPorts] at h; rw [h]
theorem OnlyPorts.freeChoices (h : OnlyPorts s t) : t.freeChoices = s.freeChoices := by
  rw [OnlyPorts] at h; rw [h]
theorem OnlyPorts.inReset (h : OnlyPorts s t) : t.inReset = s.inReset := by
  rw [OnlyPorts] at h; rw [h]
theorem OnlyPorts.tb (h : OnlyPorts s t) : t.tb = s.tb := by
  rw [OnlyPorts] at h; rw [h]
theorem OnlyPorts.leaseClock (h : OnlyPorts s t) : t.leaseClock = s.leaseClock := by
  rw [OnlyPorts] at h; rw [h]
theorem OnlyPorts.lines (h : OnlyPorts s t) : t.lines = s.lines := by
  rw [OnlyPorts] at h; rw [h]
theorem OnlyPorts.pairs (h : OnlyPorts s t) : t.pairs = s.pairs := by
  rw [OnlyPorts] at h; rw [h]
theorem OnlyPorts.groups (h : OnlyPorts s t) : t.groups = s.groups := by
  rw [OnlyPorts] at h; rw [h]
theorem OnlyPorts.held (h : OnlyPorts s t) : t.held = s.held := by
  rw [OnlyPorts] at h; rw [h]
theorem OnlyPorts.waiting (h : OnlyPorts s t) : t.waiting = s.waiting := by
  rw [OnlyPorts] at h; rw [h]
theorem OnlyPorts.claimCounter (h : OnlyPorts s t) : t.claimCounter = s.claimCounter := by
  rw [OnlyPorts] at h; rw [h]
theorem OnlyPorts.slots (h : OnlyPorts s t) : t.slots = s.slots := by
  rw [OnlyPorts] at h; rw [h]
theorem OnlyPorts.schedule (h : OnlyPorts s t) : t.schedule = s.schedule := by
  rw [OnlyPorts] at h; rw [h]
theorem OnlyPorts.armed (h : OnlyPorts s t) : t.armed = s.armed := by
  rw [OnlyPorts] at h; rw [h]
theorem OnlyPorts.postSeq (h : OnlyPorts s t) : t.postSeq = s.postSeq := by
  rw [OnlyPorts] at h; rw [h]
theorem OnlyPorts.guardA (h : OnlyPorts s t) : t.guardA = s.guardA := by
  rw [OnlyPorts] at h; rw [h]
theorem OnlyPorts.guardB (h : OnlyPorts s t) : t.guardB = s.guardB := by
  rw [OnlyPorts] at h; rw [h]
theorem OnlyPorts.inputs (h : OnlyPorts s t) : t.inputs = s.inputs := by
  rw [OnlyPorts] at h; rw [h]
theorem OnlyPorts.journal (h : OnlyPorts s t) : t.journal = s.journal := by
  rw [OnlyPorts] at h; rw [h]
theorem OnlyPorts.captureSeq (h : OnlyPorts s t) : t.captureSeq = s.captureSeq := by
  rw [OnlyPorts] at h; rw [h]
theorem OnlyPorts.journalLost (h : OnlyPorts s t) : t.journalLost = s.journalLost := by
  rw [OnlyPorts] at h; rw [h]
theorem OnlyPorts.stations (h : OnlyPorts s t) : t.stations = s.stations := by
  rw [OnlyPorts] at h; rw [h]
theorem OnlyPorts.rateDivisor (h : OnlyPorts s t) : t.rateDivisor = s.rateDivisor := by
  rw [OnlyPorts] at h; rw [h]
theorem OnlyPorts.line (h : OnlyPorts s t) (x : LineNo) : t.line x = s.line x := by
  rw [OnlyPorts] at h; rw [h]; rfl
theorem OnlyPorts.pair (h : OnlyPorts s t) (x : PairNo) : t.pair x = s.pair x := by
  rw [OnlyPorts] at h; rw [h]; rfl
theorem OnlyPorts.group (h : OnlyPorts s t) (x : GroupNo) : t.group x = s.group x := by
  rw [OnlyPorts] at h; rw [h]; rfl
theorem OnlyPorts.slot (h : OnlyPorts s t) (x : SlotNo) : t.slot x = s.slot x := by
  rw [OnlyPorts] at h; rw [h]; rfl
theorem OnlyPorts.order (h : OnlyPorts s t) (x : SlotNo) : t.order x = s.order x := by
  rw [OnlyPorts] at h; rw [h]; rfl
theorem OnlyPorts.armedOn (h : OnlyPorts s t) (x : InputNo) : t.armedOn x = s.armedOn x := by
  rw [OnlyPorts] at h; rw [h]; rfl
theorem OnlyPorts.input (h : OnlyPorts s t) (x : InputNo) : t.input x = s.input x := by
  rw [OnlyPorts] at h; rw [h]; rfl
theorem OnlyPorts.lostOf (h : OnlyPorts s t) (x : StationNo) : t.lostOf x = s.lostOf x := by
  rw [OnlyPorts] at h; rw [h]; rfl
theorem OnlyPorts.station (h : OnlyPorts s t) (x : StationNo) : t.station x = s.station x := by
  rw [OnlyPorts] at h; rw [h]; rfl

/-! ### `OnlyLines` -/

theorem OnlyLines.pending (h : OnlyLines s t) : t.pending = s.pending := by
  rw [OnlyLines] at h; rw [h]
theorem OnlyLines.freeChoices (h : OnlyLines s t) : t.freeChoices = s.freeChoices := by
  rw [OnlyLines] at h; rw [h]
theorem OnlyLines.inReset (h : OnlyLines s t) : t.inReset = s.inReset := by
  rw [OnlyLines] at h; rw [h]
theorem OnlyLines.tb (h : OnlyLines s t) : t.tb = s.tb := by
  rw [OnlyLines] at h; rw [h]
theorem OnlyLines.leaseClock (h : OnlyLines s t) : t.leaseClock = s.leaseClock := by
  rw [OnlyLines] at h; rw [h]
theorem OnlyLines.groups (h : OnlyLines s t) : t.groups = s.groups := by
  rw [OnlyLines] at h; rw [h]
theorem OnlyLines.held (h : OnlyLines s t) : t.held = s.held := by
  rw [OnlyLines] at h; rw [h]
theorem OnlyLines.waiting (h : OnlyLines s t) : t.waiting = s.waiting := by
  rw [OnlyLines] at h; rw [h]
theorem OnlyLines.claimCounter (h : OnlyLines s t) : t.claimCounter = s.claimCounter := by
  rw [OnlyLines] at h; rw [h]
theorem OnlyLines.slots (h : OnlyLines s t) : t.slots = s.slots := by
  rw [OnlyLines] at h; rw [h]
theorem OnlyLines.schedule (h : OnlyLines s t) : t.schedule = s.schedule := by
  rw [OnlyLines] at h; rw [h]
theorem OnlyLines.armed (h : OnlyLines s t) : t.armed = s.armed := by
  rw [OnlyLines] at h; rw [h]
theorem OnlyLines.postSeq (h : OnlyLines s t) : t.postSeq = s.postSeq := by
  rw [OnlyLines] at h; rw [h]
theorem OnlyLines.guardA (h : OnlyLines s t) : t.guardA = s.guardA := by
  rw [OnlyLines] at h; rw [h]
theorem OnlyLines.guardB (h : OnlyLines s t) : t.guardB = s.guardB := by
  rw [OnlyLines] at h; rw [h]
theorem OnlyLines.inputs (h : OnlyLines s t) : t.inputs = s.inputs := by
  rw [OnlyLines] at h; rw [h]
theorem OnlyLines.journal (h : OnlyLines s t) : t.journal = s.journal := by
  rw [OnlyLines] at h; rw [h]
theorem OnlyLines.captureSeq (h : OnlyLines s t) : t.captureSeq = s.captureSeq := by
  rw [OnlyLines] at h; rw [h]
theorem OnlyLines.journalLost (h : OnlyLines s t) : t.journalLost = s.journalLost := by
  rw [OnlyLines] at h; rw [h]
theorem OnlyLines.stations (h : OnlyLines s t) : t.stations = s.stations := by
  rw [OnlyLines] at h; rw [h]
theorem OnlyLines.ports (h : OnlyLines s t) : t.ports = s.ports := by
  rw [OnlyLines] at h; rw [h]
theorem OnlyLines.rateDivisor (h : OnlyLines s t) : t.rateDivisor = s.rateDivisor := by
  rw [OnlyLines] at h; rw [h]
theorem OnlyLines.group (h : OnlyLines s t) (x : GroupNo) : t.group x = s.group x := by
  rw [OnlyLines] at h; rw [h]; rfl
theorem OnlyLines.slot (h : OnlyLines s t) (x : SlotNo) : t.slot x = s.slot x := by
  rw [OnlyLines] at h; rw [h]; rfl
theorem OnlyLines.order (h : OnlyLines s t) (x : SlotNo) : t.order x = s.order x := by
  rw [OnlyLines] at h; rw [h]; rfl
theorem OnlyLines.armedOn (h : OnlyLines s t) (x : InputNo) : t.armedOn x = s.armedOn x := by
  rw [OnlyLines] at h; rw [h]; rfl
theorem OnlyLines.input (h : OnlyLines s t) (x : InputNo) : t.input x = s.input x := by
  rw [OnlyLines] at h; rw [h]; rfl
theorem OnlyLines.lostOf (h : OnlyLines s t) (x : StationNo) : t.lostOf x = s.lostOf x := by
  rw [OnlyLines] at h; rw [h]; rfl
theorem OnlyLines.station (h : OnlyLines s t) (x : StationNo) : t.station x = s.station x := by
  rw [OnlyLines] at h; rw [h]; rfl
theorem OnlyLines.port (h : OnlyLines s t) (x : StationNo) : t.port x = s.port x := by
  rw [OnlyLines] at h; rw [h]; rfl

/-! ### `OnlyOrders` -/

theorem OnlyOrders.pending (h : OnlyOrders s t) : t.pending = s.pending := by
  rw [OnlyOrders] at h; rw [h]
theorem OnlyOrders.freeChoices (h : OnlyOrders s t) : t.freeChoices = s.freeChoices := by
  rw [OnlyOrders] at h; rw [h]
theorem OnlyOrders.inReset (h : OnlyOrders s t) : t.inReset = s.inReset := by
  rw [OnlyOrders] at h; rw [h]
theorem OnlyOrders.tb (h : OnlyOrders s t) : t.tb = s.tb := by
  rw [OnlyOrders] at h; rw [h]
theorem OnlyOrders.leaseClock (h : OnlyOrders s t) : t.leaseClock = s.leaseClock := by
  rw [OnlyOrders] at h; rw [h]
theorem OnlyOrders.groups (h : OnlyOrders s t) : t.groups = s.groups := by
  rw [OnlyOrders] at h; rw [h]
theorem OnlyOrders.held (h : OnlyOrders s t) : t.held = s.held := by
  rw [OnlyOrders] at h; rw [h]
theorem OnlyOrders.waiting (h : OnlyOrders s t) : t.waiting = s.waiting := by
  rw [OnlyOrders] at h; rw [h]
theorem OnlyOrders.claimCounter (h : OnlyOrders s t) : t.claimCounter = s.claimCounter := by
  rw [OnlyOrders] at h; rw [h]
theorem OnlyOrders.postSeq (h : OnlyOrders s t) : t.postSeq = s.postSeq := by
  rw [OnlyOrders] at h; rw [h]
theorem OnlyOrders.guardA (h : OnlyOrders s t) : t.guardA = s.guardA := by
  rw [OnlyOrders] at h; rw [h]
theorem OnlyOrders.guardB (h : OnlyOrders s t) : t.guardB = s.guardB := by
  rw [OnlyOrders] at h; rw [h]
theorem OnlyOrders.inputs (h : OnlyOrders s t) : t.inputs = s.inputs := by
  rw [OnlyOrders] at h; rw [h]
theorem OnlyOrders.journal (h : OnlyOrders s t) : t.journal = s.journal := by
  rw [OnlyOrders] at h; rw [h]
theorem OnlyOrders.captureSeq (h : OnlyOrders s t) : t.captureSeq = s.captureSeq := by
  rw [OnlyOrders] at h; rw [h]
theorem OnlyOrders.journalLost (h : OnlyOrders s t) : t.journalLost = s.journalLost := by
  rw [OnlyOrders] at h; rw [h]
theorem OnlyOrders.stations (h : OnlyOrders s t) : t.stations = s.stations := by
  rw [OnlyOrders] at h; rw [h]
theorem OnlyOrders.rateDivisor (h : OnlyOrders s t) : t.rateDivisor = s.rateDivisor := by
  rw [OnlyOrders] at h; rw [h]
theorem OnlyOrders.group (h : OnlyOrders s t) (x : GroupNo) : t.group x = s.group x := by
  rw [OnlyOrders] at h; rw [h]; rfl
theorem OnlyOrders.input (h : OnlyOrders s t) (x : InputNo) : t.input x = s.input x := by
  rw [OnlyOrders] at h; rw [h]; rfl
theorem OnlyOrders.lostOf (h : OnlyOrders s t) (x : StationNo) : t.lostOf x = s.lostOf x := by
  rw [OnlyOrders] at h; rw [h]; rfl
theorem OnlyOrders.station (h : OnlyOrders s t) (x : StationNo) : t.station x = s.station x := by
  rw [OnlyOrders] at h; rw [h]; rfl

/-! ### `OnlyClaims` -/

theorem OnlyClaims.pending (h : OnlyClaims s t) : t.pending = s.pending := by
  rw [OnlyClaims] at h; rw [h]
theorem OnlyClaims.freeChoices (h : OnlyClaims s t) : t.freeChoices = s.freeChoices := by
  rw [OnlyClaims] at h; rw [h]
theorem OnlyClaims.inReset (h : OnlyClaims s t) : t.inReset = s.inReset := by
  rw [OnlyClaims] at h; rw [h]
theorem OnlyClaims.tb (h : OnlyClaims s t) : t.tb = s.tb := by
  rw [OnlyClaims] at h; rw [h]
theorem OnlyClaims.leaseClock (h : OnlyClaims s t) : t.leaseClock = s.leaseClock := by
  rw [OnlyClaims] at h; rw [h]
theorem OnlyClaims.groups (h : OnlyClaims s t) : t.groups = s.groups := by
  rw [OnlyClaims] at h; rw [h]
theorem OnlyClaims.claimCounter (h : OnlyClaims s t) : t.claimCounter = s.claimCounter := by
  rw [OnlyClaims] at h; rw [h]
theorem OnlyClaims.slots (h : OnlyClaims s t) : t.slots = s.slots := by
  rw [OnlyClaims] at h; rw [h]
theorem OnlyClaims.schedule (h : OnlyClaims s t) : t.schedule = s.schedule := by
  rw [OnlyClaims] at h; rw [h]
theorem OnlyClaims.armed (h : OnlyClaims s t) : t.armed = s.armed := by
  rw [OnlyClaims] at h; rw [h]
theorem OnlyClaims.postSeq (h : OnlyClaims s t) : t.postSeq = s.postSeq := by
  rw [OnlyClaims] at h; rw [h]
theorem OnlyClaims.guardA (h : OnlyClaims s t) : t.guardA = s.guardA := by
  rw [OnlyClaims] at h; rw [h]
theorem OnlyClaims.guardB (h : OnlyClaims s t) : t.guardB = s.guardB := by
  rw [OnlyClaims] at h; rw [h]
theorem OnlyClaims.inputs (h : OnlyClaims s t) : t.inputs = s.inputs := by
  rw [OnlyClaims] at h; rw [h]
theorem OnlyClaims.journal (h : OnlyClaims s t) : t.journal = s.journal := by
  rw [OnlyClaims] at h; rw [h]
theorem OnlyClaims.captureSeq (h : OnlyClaims s t) : t.captureSeq = s.captureSeq := by
  rw [OnlyClaims] at h; rw [h]
theorem OnlyClaims.journalLost (h : OnlyClaims s t) : t.journalLost = s.journalLost := by
  rw [OnlyClaims] at h; rw [h]
theorem OnlyClaims.stations (h : OnlyClaims s t) : t.stations = s.stations := by
  rw [OnlyClaims] at h; rw [h]
theorem OnlyClaims.rateDivisor (h : OnlyClaims s t) : t.rateDivisor = s.rateDivisor := by
  rw [OnlyClaims] at h; rw [h]
theorem OnlyClaims.group (h : OnlyClaims s t) (x : GroupNo) : t.group x = s.group x := by
  rw [OnlyClaims] at h; rw [h]; rfl
theorem OnlyClaims.slot (h : OnlyClaims s t) (x : SlotNo) : t.slot x = s.slot x := by
  rw [OnlyClaims] at h; rw [h]; rfl
theorem OnlyClaims.order (h : OnlyClaims s t) (x : SlotNo) : t.order x = s.order x := by
  rw [OnlyClaims] at h; rw [h]; rfl
theorem OnlyClaims.armedOn (h : OnlyClaims s t) (x : InputNo) : t.armedOn x = s.armedOn x := by
  rw [OnlyClaims] at h; rw [h]; rfl
theorem OnlyClaims.input (h : OnlyClaims s t) (x : InputNo) : t.input x = s.input x := by
  rw [OnlyClaims] at h; rw [h]; rfl
theorem OnlyClaims.lostOf (h : OnlyClaims s t) (x : StationNo) : t.lostOf x = s.lostOf x := by
  rw [OnlyClaims] at h; rw [h]; rfl
theorem OnlyClaims.station (h : OnlyClaims s t) (x : StationNo) : t.station x = s.station x := by
  rw [OnlyClaims] at h; rw [h]; rfl

/-! ### `OnlyCapture` -/

theorem OnlyCapture.pending (h : OnlyCapture s t) : t.pending = s.pending := by
  rw [OnlyCapture] at h; rw [h]
theorem OnlyCapture.freeChoices (h : OnlyCapture s t) : t.freeChoices = s.freeChoices := by
  rw [OnlyCapture] at h; rw [h]
theorem OnlyCapture.inReset (h : OnlyCapture s t) : t.inReset = s.inReset := by
  rw [OnlyCapture] at h; rw [h]
theorem OnlyCapture.tb (h : OnlyCapture s t) : t.tb = s.tb := by
  rw [OnlyCapture] at h; rw [h]
theorem OnlyCapture.leaseClock (h : OnlyCapture s t) : t.leaseClock = s.leaseClock := by
  rw [OnlyCapture] at h; rw [h]
theorem OnlyCapture.groups (h : OnlyCapture s t) : t.groups = s.groups := by
  rw [OnlyCapture] at h; rw [h]
theorem OnlyCapture.held (h : OnlyCapture s t) : t.held = s.held := by
  rw [OnlyCapture] at h; rw [h]
theorem OnlyCapture.waiting (h : OnlyCapture s t) : t.waiting = s.waiting := by
  rw [OnlyCapture] at h; rw [h]
theorem OnlyCapture.claimCounter (h : OnlyCapture s t) : t.claimCounter = s.claimCounter := by
  rw [OnlyCapture] at h; rw [h]
theorem OnlyCapture.postSeq (h : OnlyCapture s t) : t.postSeq = s.postSeq := by
  rw [OnlyCapture] at h; rw [h]
theorem OnlyCapture.guardA (h : OnlyCapture s t) : t.guardA = s.guardA := by
  rw [OnlyCapture] at h; rw [h]
theorem OnlyCapture.guardB (h : OnlyCapture s t) : t.guardB = s.guardB := by
  rw [OnlyCapture] at h; rw [h]
theorem OnlyCapture.stations (h : OnlyCapture s t) : t.stations = s.stations := by
  rw [OnlyCapture] at h; rw [h]
theorem OnlyCapture.rateDivisor (h : OnlyCapture s t) : t.rateDivisor = s.rateDivisor := by
  rw [OnlyCapture] at h; rw [h]
theorem OnlyCapture.group (h : OnlyCapture s t) (x : GroupNo) : t.group x = s.group x := by
  rw [OnlyCapture] at h; rw [h]; rfl
theorem OnlyCapture.station (h : OnlyCapture s t) (x : StationNo) : t.station x = s.station x := by
  rw [OnlyCapture] at h; rw [h]; rfl

/-! ### `OnlyGroups` -/

theorem OnlyGroups.pending (h : OnlyGroups s t) : t.pending = s.pending := by
  rw [OnlyGroups] at h; rw [h]
theorem OnlyGroups.freeChoices (h : OnlyGroups s t) : t.freeChoices = s.freeChoices := by
  rw [OnlyGroups] at h; rw [h]
theorem OnlyGroups.inReset (h : OnlyGroups s t) : t.inReset = s.inReset := by
  rw [OnlyGroups] at h; rw [h]
theorem OnlyGroups.tb (h : OnlyGroups s t) : t.tb = s.tb := by
  rw [OnlyGroups] at h; rw [h]
theorem OnlyGroups.leaseClock (h : OnlyGroups s t) : t.leaseClock = s.leaseClock := by
  rw [OnlyGroups] at h; rw [h]
theorem OnlyGroups.held (h : OnlyGroups s t) : t.held = s.held := by
  rw [OnlyGroups] at h; rw [h]
theorem OnlyGroups.waiting (h : OnlyGroups s t) : t.waiting = s.waiting := by
  rw [OnlyGroups] at h; rw [h]
theorem OnlyGroups.claimCounter (h : OnlyGroups s t) : t.claimCounter = s.claimCounter := by
  rw [OnlyGroups] at h; rw [h]
theorem OnlyGroups.slots (h : OnlyGroups s t) : t.slots = s.slots := by
  rw [OnlyGroups] at h; rw [h]
theorem OnlyGroups.schedule (h : OnlyGroups s t) : t.schedule = s.schedule := by
  rw [OnlyGroups] at h; rw [h]
theorem OnlyGroups.armed (h : OnlyGroups s t) : t.armed = s.armed := by
  rw [OnlyGroups] at h; rw [h]
theorem OnlyGroups.postSeq (h : OnlyGroups s t) : t.postSeq = s.postSeq := by
  rw [OnlyGroups] at h; rw [h]
theorem OnlyGroups.guardA (h : OnlyGroups s t) : t.guardA = s.guardA := by
  rw [OnlyGroups] at h; rw [h]
theorem OnlyGroups.guardB (h : OnlyGroups s t) : t.guardB = s.guardB := by
  rw [OnlyGroups] at h; rw [h]
theorem OnlyGroups.inputs (h : OnlyGroups s t) : t.inputs = s.inputs := by
  rw [OnlyGroups] at h; rw [h]
theorem OnlyGroups.journal (h : OnlyGroups s t) : t.journal = s.journal := by
  rw [OnlyGroups] at h; rw [h]
theorem OnlyGroups.captureSeq (h : OnlyGroups s t) : t.captureSeq = s.captureSeq := by
  rw [OnlyGroups] at h; rw [h]
theorem OnlyGroups.journalLost (h : OnlyGroups s t) : t.journalLost = s.journalLost := by
  rw [OnlyGroups] at h; rw [h]
theorem OnlyGroups.stations (h : OnlyGroups s t) : t.stations = s.stations := by
  rw [OnlyGroups] at h; rw [h]
theorem OnlyGroups.rateDivisor (h : OnlyGroups s t) : t.rateDivisor = s.rateDivisor := by
  rw [OnlyGroups] at h; rw [h]
theorem OnlyGroups.slot (h : OnlyGroups s t) (x : SlotNo) : t.slot x = s.slot x := by
  rw [OnlyGroups] at h; rw [h]; rfl
theorem OnlyGroups.order (h : OnlyGroups s t) (x : SlotNo) : t.order x = s.order x := by
  rw [OnlyGroups] at h; rw [h]; rfl
theorem OnlyGroups.armedOn (h : OnlyGroups s t) (x : InputNo) : t.armedOn x = s.armedOn x := by
  rw [OnlyGroups] at h; rw [h]; rfl
theorem OnlyGroups.input (h : OnlyGroups s t) (x : InputNo) : t.input x = s.input x := by
  rw [OnlyGroups] at h; rw [h]; rfl
theorem OnlyGroups.lostOf (h : OnlyGroups s t) (x : StationNo) : t.lostOf x = s.lostOf x := by
  rw [OnlyGroups] at h; rw [h]; rfl
theorem OnlyGroups.station (h : OnlyGroups s t) (x : StationNo) : t.station x = s.station x := by
  rw [OnlyGroups] at h; rw [h]; rfl

end Sys2Proof.Machine
end

