-- ==== Sys2Proof/Laws/Lines.lean ====
section
/-! SUPPORT. What the line unit's shared operations leave on each line and pair: a walk over the lines of a mask, a
command (R20, R21), the safe state (R27), a grant and a release of lines (R39, R49). -/

namespace Sys2Proof.Machine

theorem mem_linesOf {m : LineMask} {l : LineNo} : l ∈ linesOf m ↔ named m l = true := by
  simp [linesOf]

theorem nodup_linesOf (m : LineMask) : (linesOf m).Nodup := (List.nodup_finRange 16).filter _

/-- A walk that changes one line at a time by `g`: each line of the walk takes its new record once, and every other
line stays. -/
theorem foldl_setLine (g : LineNo → LineRec → LineRec) : ∀ (l : List LineNo), l.Nodup →
    ∀ (s : State) (x : LineNo),
      (l.foldl (fun s y => s.setLine y (g y (s.line y))) s).line x =
        if x ∈ l then g x (s.line x) else s.line x := by
  intro l
  induction l with
  | nil => intro _ s x; simp
  | cons y l ih =>
    intro hd s x
    have hn := List.nodup_cons.mp hd
    rw [List.foldl_cons, ih hn.2, State.setLine_line]
    by_cases hx : x = y
    · subst hx; simp [hn.1]
    · simp [hx]

/-- The walk changes line records only. -/
theorem foldl_setLine_eq (g : LineNo → LineRec → LineRec) (l : List LineNo) (s : State) :
    l.foldl (fun s y => s.setLine y (g y (s.line y))) s =
      { s with lines := (l.foldl (fun s y => s.setLine y (g y (s.line y))) s).lines } := by
  induction l generalizing s with
  | nil => rfl
  | cons y l ih => rw [List.foldl_cons, ih]; rfl

/-- The lines of a granted claim take its id, and drive at their first grant (R18, R39). -/
theorem grant_line (s : State) (c : Claim) (l : LineNo) :
    (s.grant c).line l =
      if named c.lines l = true then
        { s.line l with
          holder := some c.id
          driveOn := if (s.line l).granted then (s.line l).driveOn else true
          granted := true }
      else s.line l := by
  have h := foldl_setLine (fun _ r => { r with
    holder := some c.id, driveOn := if r.granted then r.driveOn else true, granted := true })
    (linesOf c.lines) (nodup_linesOf _) { s with held := s.held ++ [c] } l
  simp only [mem_linesOf] at h
  exact h

/-- A grant changes line records and the held claims only. -/
theorem grant_eq (s : State) (c : Claim) :
    s.grant c = { s with held := s.held ++ [c], lines := (s.grant c).lines } :=
  foldl_setLine_eq (fun _ r => { r with
    holder := some c.id, driveOn := if r.granted then r.driveOn else true, granted := true }) _ _

/-- The lines of a claim given up become free and keep the rest of their records (R53). -/
theorem freeLines_line (s : State) (m : LineMask) (l : LineNo) :
    ((linesOf m).foldl State.freeLine s).line l =
      if named m l = true then { s.line l with holder := none } else s.line l := by
  have h := foldl_setLine (fun _ r => { r with holder := none }) (linesOf m) (nodup_linesOf m) s l
  simp only [mem_linesOf] at h
  exact h

/-- The lines of a SHAPE take its settings (R32). -/
theorem shapeLines_line (s : State) (m : LineMask) (x : ShapeForm) (l : LineNo) :
    ((linesOf m).foldl (State.shapeLine x) s).line l =
      if named m l = true then
        { s.line l with
          polarity := x.polarity.apply (s.line l).polarity
          safe := x.safe.apply (s.line l).safe
          driveOn := x.drive.apply (s.line l).driveOn }
      else s.line l := by
  have h := foldl_setLine (fun _ r => { r with
    polarity := x.polarity.apply r.polarity, safe := x.safe.apply r.safe
    driveOn := x.drive.apply r.driveOn }) (linesOf m) (nodup_linesOf m) s l
  simp only [mem_linesOf] at h
  exact h

/-! ### Pairs -/

theorem primary_ne_partner (k : PairNo) : primary k ≠ partner k := by
  simp [primary, partner, Fin.ext_iff]

theorem partner_ne_primary (k : PairNo) : partner k ≠ primary k := (primary_ne_partner k).symm

theorem pairOf_primary (k : PairNo) : pairOf (primary k) = k := by
  simp [pairOf, primary]

theorem pairOf_partner (k : PairNo) : pairOf (partner k) = k := by
  simp only [pairOf, partner, Fin.ext_iff]; omega

theorem groupOf_primary (k : PairNo) : groupOf (primary k) = groupOfPair k := by
  simp only [groupOf, primary, groupOfPair, Fin.ext_iff]; omega

theorem groupOf_partner (k : PairNo) : groupOf (partner k) = groupOfPair k := by
  simp only [groupOf, partner, groupOfPair, Fin.ext_iff]; omega

/-- A line is one of the two lines of its pair. -/
theorem eq_primary_or_partner (l : LineNo) : l = primary (pairOf l) ∨ l = partner (pairOf l) := by
  simp only [primary, partner, pairOf, Fin.ext_iff]; omega

theorem setAsserted_line (s : State) (l : LineNo) (a : Bool) (x : LineNo) :
    (s.setAsserted l a).line x = if x = l then { s.line l with asserted := a } else s.line x := by
  simp [State.setAsserted, State.setLine_line]

theorem setPairState_pair (s : State) (k : PairNo) (x : PairState) (j : PairNo) :
    (s.setPairState k x).pair j = if j = k then { s.pair k with state := x } else s.pair j := by
  simp [State.setPairState, State.setPair_pair]

@[simp] theorem setPairState_line (s : State) (k : PairNo) (x : PairState) (l : LineNo) :
    (s.setPairState k x).line l = s.line l := rfl

@[simp] theorem setAsserted_pair (s : State) (l : LineNo) (a : Bool) (k : PairNo) :
    (s.setAsserted l a).pair k = s.pair k := rfl

theorem safeDeassert_line (s : State) (l x : LineNo) :
    (s.safeDeassert l).line x =
      if x = l ∧ (s.line l).safe = false then { s.line l with asserted := false } else s.line x := by
  unfold State.safeDeassert
  cases h : (s.line l).safe <;> simp [setAsserted_line]

theorem safeAssert_line (s : State) (l x : LineNo) :
    (s.safeAssert l).line x =
      if x = l ∧ (s.line l).safe = true then { s.line l with asserted := true } else s.line x := by
  unfold State.safeAssert
  cases h : (s.line l).safe <;> simp [setAsserted_line]

@[simp] theorem safeDeassert_pair (s : State) (l : LineNo) (k : PairNo) :
    (s.safeDeassert l).pair k = s.pair k := by unfold State.safeDeassert; split <;> rfl

@[simp] theorem safeAssert_pair (s : State) (l : LineNo) (k : PairNo) :
    (s.safeAssert l).pair k = s.pair k := by unfold State.safeAssert; split <;> rfl

/-- The safe state of a pair (R27): each of its two lines stands at its safe level; no other line changes. -/
theorem safePair_line (s : State) (k : PairNo) (x : LineNo) :
    (s.safePair k).line x =
      if x = primary k ∨ x = partner k then { s.line x with asserted := (s.line x).safe }
      else s.line x := by
  have hne := primary_ne_partner k
  have hne' := partner_ne_primary k
  unfold State.safePair State.setFromLevels
  simp only [setPairState_line, safeAssert_line, safeDeassert_line]
  by_cases h1 : x = primary k
  · subst h1
    cases hs : (s.line (primary k)).safe <;> cases ht : (s.line (partner k)).safe <;>
      simp [hne, hne', hs, ht]
  · by_cases h2 : x = partner k
    · subst h2
      cases hs : (s.line (primary k)).safe <;> cases ht : (s.line (partner k)).safe <;>
        simp [hne, hne', hs, ht]
    · simp [h1, h2]

/-- The safe state of a pair cancels a gap, and leaves its gap value and every other pair (R27). -/
theorem safePair_pair (s : State) (k j : PairNo) :
    (s.safePair k).pair j =
      if j = k then
        { s.pair k with
          state :=
            if (s.line (primary k)).safe then .primaryOn
            else if (s.line (partner k)).safe then .partnerOn else .bothOff }
      else s.pair j := by
  have hl := safePair_line s k
  have h1 : ((s.safePair k).line (primary k)).asserted = (s.line (primary k)).safe := by
    rw [hl]; simp
  have h2 : ((s.safePair k).line (partner k)).asserted = (s.line (partner k)).safe := by
    rw [hl]; simp
  unfold State.safePair State.setFromLevels at h1 h2 ⊢
  simp only [setPairState_line] at h1 h2
  rw [setPairState_pair, h1, h2]
  simp

/-- A line set to safe: it and, where its pair is bound, the pair's other line stand at their safe levels. -/
theorem toSafe_line (s : State) (l x : LineNo) :
    (s.toSafe l).line x =
      if x = l ∨ (s.pairBound (pairOf l) = true ∧ pairOf x = pairOf l) then
        { s.line x with asserted := (s.line x).safe }
      else s.line x := by
  unfold State.toSafe
  by_cases hb : s.pairBound (pairOf l) = true
  · simp only [hb, if_true, safePair_line, true_and]
    have h : (x = primary (pairOf l) ∨ x = partner (pairOf l)) ↔ (x = l ∨ pairOf x = pairOf l) := by
      constructor
      · rintro (h | h)
        · right; rw [h, pairOf_primary]
        · right; rw [h, pairOf_partner]
      · rintro (h | h)
        · rw [h]; exact eq_primary_or_partner l
        · rw [← h]; exact eq_primary_or_partner x
    simp only [h]
  · rw [if_neg hb, setAsserted_line]
    by_cases hx : x = l
    · subst hx; simp
    · simp [hx, hb]

theorem toSafe_pair (s : State) (l : LineNo) (k : PairNo) :
    (s.toSafe l).pair k =
      if s.pairBound k = true ∧ k = pairOf l then
        { s.pair k with state := levelState (s.line (primary k)).safe (s.line (partner k)).safe }
      else s.pair k := by
  unfold State.toSafe
  by_cases hb : s.pairBound (pairOf l) = true
  · simp only [hb, if_true, safePair_pair]
    by_cases hk : k = pairOf l
    · subst hk; simp [hb, levelState]
    · simp [hk]
  · rw [if_neg hb, setAsserted_pair, if_neg]
    rintro ⟨h, rfl⟩
    exact hb h

@[simp] theorem toSafe_pairBound (s : State) (l : LineNo) (k : PairNo) :
    (s.toSafe l).pairBound k = s.pairBound k := by
  unfold State.pairBound
  rw [toSafe_pair]
  split
  · rename_i h
    have hb := h.1
    unfold State.pairBound at hb
    rw [hb]
    unfold levelState
    split
    · rfl
    · split <;> rfl
  · rfl

/-- Lines set to safe one after another (R30, R106): each of them, and both lines of each bound pair with a line among
them, stand at their safe levels. -/
theorem foldl_toSafe_line (ls : List LineNo) (s : State) (x : LineNo) :
    (ls.foldl State.toSafe s).line x =
      if x ∈ ls ∨ (s.pairBound (pairOf x) = true ∧ ∃ l ∈ ls, pairOf l = pairOf x) then
        { s.line x with asserted := (s.line x).safe }
      else s.line x := by
  induction ls generalizing s with
  | nil => simp
  | cons l ls ih =>
    rw [List.foldl_cons, ih, toSafe_pairBound, toSafe_line]
    by_cases h1 : x = l ∨ (s.pairBound (pairOf l) = true ∧ pairOf x = pairOf l)
    · rw [if_pos h1]
      have h2 : x ∈ l :: ls ∨ (s.pairBound (pairOf x) = true ∧ ∃ y ∈ l :: ls, pairOf y = pairOf x) := by
        rcases h1 with h1 | ⟨h1, h2⟩
        · left; simp [h1]
        · right; exact ⟨by rw [h2]; exact h1, l, by simp, h2.symm⟩
      rw [if_pos h2]
      split <;> rfl
    · rw [if_neg h1]
      have h3 : (x ∈ l :: ls ∨ (s.pairBound (pairOf x) = true ∧ ∃ y ∈ l :: ls, pairOf y = pairOf x)) ↔
          (x ∈ ls ∨ (s.pairBound (pairOf x) = true ∧ ∃ y ∈ ls, pairOf y = pairOf x)) := by
        simp only [not_or, not_and] at h1
        simp only [List.mem_cons, exists_eq_or_imp, h1.1, false_or]
        constructor
        · rintro (h | ⟨h, h' | h'⟩)
          · exact .inl h
          · exact absurd h'.symm (h1.2 (by rw [h']; exact h))
          · exact .inr ⟨h, h'⟩
        · rintro (h | ⟨h, h'⟩)
          · exact .inl h
          · exact .inr ⟨h, .inr h'⟩
      simp only [h3]

theorem foldl_toSafe_pair (ls : List LineNo) (s : State) (k : PairNo) :
    (ls.foldl State.toSafe s).pair k =
      if s.pairBound k = true ∧ ∃ l ∈ ls, pairOf l = k then
        { s.pair k with state := levelState (s.line (primary k)).safe (s.line (partner k)).safe }
      else s.pair k := by
  induction ls generalizing s with
  | nil => simp
  | cons l ls ih =>
    have hs : ∀ x, ((s.toSafe l).line x).safe = (s.line x).safe := by
      intro x; rw [toSafe_line]; split <;> rfl
    rw [List.foldl_cons, ih, toSafe_pairBound, hs, hs, toSafe_pair]
    by_cases hb : s.pairBound k = true
    · by_cases hk : pairOf l = k
      · have h1 : s.pairBound k = true ∧ k = pairOf l := ⟨hb, hk.symm⟩
        have h2 : s.pairBound k = true ∧ ∃ y ∈ l :: ls, pairOf y = k := ⟨hb, l, by simp, hk⟩
        rw [if_pos h1, if_pos h2]
        split <;> rfl
      · have hk' : ¬k = pairOf l := fun h => hk h.symm
        simp [hb, hk, hk']
    · simp [hb]

/-- The bound pair of a line is touched by the lines of a mask. -/
theorem exists_mem_linesOf_pair {m : LineMask} {k : PairNo} :
    (∃ l ∈ linesOf m, pairOf l = k) ↔ (named m (primary k) = true ∨ named m (partner k) = true) := by
  constructor
  · rintro ⟨l, hl, rfl⟩
    rw [mem_linesOf] at hl
    rcases eq_primary_or_partner l with h | h
    · left; rw [← h]; exact hl
    · right; rw [← h]; exact hl
  · rintro (h | h)
    · exact ⟨primary k, mem_linesOf.mpr h, pairOf_primary k⟩
    · exact ⟨partner k, mem_linesOf.mpr h, pairOf_partner k⟩

/-- The SAFE action on the lines of a mask (R30). -/
theorem applySafe_line (s : State) (m : LineMask) (x : LineNo) :
    (s.applyAction m .safe).line x =
      if named m x || s.pairTouched m x then { s.line x with asserted := (s.line x).safe }
      else s.line x := by
  rw [State.applyAction, foldl_toSafe_line]
  have h : (x ∈ linesOf m ∨ (s.pairBound (pairOf x) = true ∧ ∃ l ∈ linesOf m, pairOf l = pairOf x)) ↔
      (named m x || s.pairTouched m x) = true := by
    rw [exists_mem_linesOf_pair, mem_linesOf]
    simp only [State.pairTouched, Bool.or_eq_true, Bool.and_eq_true]
  simp only [h]

theorem applySafe_pair (s : State) (m : LineMask) (k : PairNo) :
    (s.applyAction m .safe).pair k =
      if s.pairTouched m (primary k) then
        { s.pair k with state := levelState (s.line (primary k)).safe (s.line (partner k)).safe }
      else s.pair k := by
  rw [State.applyAction, foldl_toSafe_pair]
  have h : (s.pairBound k = true ∧ ∃ l ∈ linesOf m, pairOf l = k) ↔
      s.pairTouched m (primary k) = true := by
    rw [exists_mem_linesOf_pair]
    simp only [State.pairTouched, pairOf_primary, Bool.or_eq_true, Bool.and_eq_true]
  simp only [h]

end Sys2Proof.Machine
end

