-- ==== Sys2Proof/Laws/Claims.lean ====
section
/-! SUPPORT. Claim ids and the order store's selections: what they read, so that a change elsewhere leaves them. -/

namespace Sys2Proof.Machine

/-! ### Claim ids (R37) -/

theorem claimIdUsed_iff (s : State) (id : Byte) :
    s.claimIdUsed id = true ↔ ∃ c ∈ s.claims, c.id = id := by
  simp only [State.claimIdUsed, State.claims, Bool.or_eq_true, List.any_eq_true, beq_iff_eq,
    List.mem_append, List.mem_map]
  constructor
  · rintro (⟨c, hc, h⟩ | ⟨w, hw, h⟩)
    · exact ⟨c, .inl hc, h⟩
    · exact ⟨w.claim, .inr ⟨w, hw, rfl⟩, h⟩
  · rintro ⟨c, hc | ⟨w, hw, rfl⟩, h⟩
    · exact .inl ⟨c, hc, h⟩
    · exact .inr ⟨w, hw, h⟩

/-- An id is chosen by the claims alone. -/
theorem idFrom_congr {s t : State} (hh : s.held = t.held) (hw : s.waiting = t.waiting) (n : Nat)
    (id : Byte) : s.idFrom n id = t.idFrom n id := by
  induction n generalizing id with
  | zero => rfl
  | succ n ih =>
    have hu : s.claimIdUsed id = t.claimIdUsed id := by simp only [State.claimIdUsed, hh, hw]
    rw [State.idFrom, State.idFrom, hu, ih]

/-- The next claim id depends on the claims and the counter alone. -/
theorem nextClaimId_congr {s t : State} (hh : s.held = t.held) (hw : s.waiting = t.waiting)
    (hc : s.claimCounter = t.claimCounter) : s.nextClaimId = t.nextClaimId := by
  unfold State.nextClaimId
  rw [hc, idFrom_congr hh hw]

/-- The taking of a request does not change the next claim id. -/
theorem nextClaimId_dequeue_leased (s : State) (p : StationNo) :
    ((s.dequeue p).leased p).nextClaimId = s.nextClaimId := nextClaimId_congr rfl rfl rfl

/-- The walk of the id counter: it passes over used ids only, and stops at an unused one unless it runs out of
steps. -/
theorem idFrom_spec (s : State) (fuel : Nat) (id : Byte) :
    ∃ n ≤ fuel, s.idFrom fuel id = stepForward^[n] id ∧
      (∀ j < n, s.claimIdUsed (stepForward^[j] id) = true) ∧
      (n < fuel → s.claimIdUsed (s.idFrom fuel id) = false) := by
  induction fuel generalizing id with
  | zero => exact ⟨0, le_refl _, rfl, by simp, by simp⟩
  | succ n ih =>
    by_cases hu : s.claimIdUsed id = true
    · obtain ⟨k, hk, h1, h2, h3⟩ := ih (stepForward id)
      refine ⟨k + 1, by omega, by simp [State.idFrom, hu, h1], ?_, ?_⟩
      · intro j hj
        cases j with
        | zero => exact hu
        | succ j => exact h2 j (by omega)
      · intro hlt
        simp only [State.idFrom, hu, if_true]
        exact h3 (by omega)
    · refine ⟨0, by omega, by simp [State.idFrom, hu], by simp, fun _ => ?_⟩
      simp [State.idFrom, hu]

/-! ### Selections of the order store -/

theorem slotsWith_eq (s : State) (q : Order → Bool) :
    s.slotsWith q = (List.finRange 128).filter (s.orderIs q) := rfl

theorem mem_slotsWith {s : State} {q : Order → Bool} {i : SlotNo} :
    i ∈ s.slotsWith q ↔ ∃ o, s.order i = some o ∧ q o = true := by
  rw [slotsWith_eq, List.mem_filter, State.orderIs]
  cases s.order i <;> simp

theorem nodup_slotsWith (s : State) (q : Order → Bool) : (s.slotsWith q).Nodup :=
  (List.nodup_finRange 128).filter _

/-- No order of the station targets a line of the mask. -/
theorem slotsOn_eq_nil {s : State} {n : StationNo} {m : LineMask} :
    s.slotsOn n m = [] ↔
      ∀ i o, s.order i = some o → o.station = n → o.body.targets &&& m = 0 := by
  rw [State.slotsOn, List.eq_nil_iff_forall_not_mem]
  constructor
  · intro h i o ho hn
    by_contra hc
    exact h i (mem_slotsWith.mpr ⟨o, ho, by simpa [hn] using hc⟩)
  · intro h i hi
    obtain ⟨o, ho, hq⟩ := mem_slotsWith.mp hi
    simp only [Bool.and_eq_true, beq_iff_eq, bne_iff_ne] at hq
    exact hq.2 (h i o ho hq.1)

/-- Two slots of the order store after one is written. -/
theorem setSlot_order (s : State) (i j : SlotNo) (x : Slot) :
    (s.setSlot i x).order j = if j = i then x.order else s.order j := by
  simp only [State.order, State.setSlot_slot]; split <;> rfl

theorem slots_ext {a b : Vector Slot 128} (h : ∀ i : SlotNo, a[i] = b[i]) : a = b := by
  apply Vector.ext
  intro i hi
  exact h ⟨i, hi⟩

/-- The removal of every order that satisfies `q` (R57), in one step. -/
theorem removeOrders_slotsWith (s : State) (q : Order → Bool) :
    s.removeOrders (s.slotsWith q) = s.without q := by
  have key : ∀ (l : List SlotNo), l.Nodup → ∀ u : State,
      l.foldl State.removeOrder u = { u with
        slots := Vector.ofFn (fun i : SlotNo =>
          if i ∈ l then ⟨(u.slot i).generation + 1, none⟩ else u.slot i)
        schedule := u.schedule.filter (fun j => decide (j ∉ l))
        armed := u.armed.map (fun x => x.filter (fun j => decide (j ∉ l))) } := by
    intro l
    induction l with
    | nil =>
      intro _ u
      have h1 : Vector.ofFn (fun i : SlotNo => u.slot i) = u.slots :=
        slots_ext fun i => by simp [State.slot]
      simp [h1]
    | cons i l ih =>
      intro hd u
      have hn := List.nodup_cons.mp hd
      rw [List.foldl_cons, ih hn.2]
      have h1 : Vector.ofFn (fun j : SlotNo =>
            if j ∈ l then (⟨((u.removeOrder i).slot j).generation + 1, none⟩ : Slot)
            else (u.removeOrder i).slot j) =
          Vector.ofFn (fun j : SlotNo =>
            if j ∈ i :: l then (⟨(u.slot j).generation + 1, none⟩ : Slot) else u.slot j) := by
        apply slots_ext
        intro j
        have hs : (u.removeOrder i).slot j =
            if j = i then ⟨(u.slot i).generation + 1, none⟩ else u.slot j :=
          State.setSlot_slot u i _ j
        simp only [Fin.getElem_fin, Vector.getElem_ofFn, hs, List.mem_cons]
        by_cases hj : j = i
        · subst hj; simp [hn.1]
        · simp [hj]
      rw [h1]
      simp only [State.removeOrder, List.filter_filter, Vector.map_map, List.mem_cons,
        not_or]
      have h2 : ∀ j : SlotNo, (decide (j ∉ l) && (j != i)) = decide (¬j = i ∧ j ∉ l) := by
        intro j; by_cases hj : j = i <;> simp [hj]
      simp only [h2, Function.comp_def, List.filter_filter]
      rfl
  rw [State.removeOrders, key _ (nodup_slotsWith s q), State.without]
  have h3 : ∀ j : SlotNo, decide (j ∉ s.slotsWith q) = !s.orderIs q j := by
    intro j
    rw [slotsWith_eq]
    by_cases h : s.orderIs q j = true <;> simp [h]
  simp only [h3]
  suffices h : Vector.ofFn (fun i : SlotNo =>
        if i ∈ s.slotsWith q then (⟨(s.slot i).generation + 1, none⟩ : Slot) else s.slot i) =
      s.slots.map (fun x =>
        match x.order with
        | some o => if q o then ⟨x.generation + 1, none⟩ else x
        | none => x) by
    rw [h] <;> rfl
  apply slots_ext
  intro i
  have h4 : i ∈ s.slotsWith q ↔ s.orderIs q i = true := by
    rw [slotsWith_eq]; simp
  have h5 : s.slots[i.val] = s.slot i := rfl
  simp only [Fin.getElem_fin, Vector.getElem_ofFn, Vector.getElem_map, h5, Fin.eta]
  rw [State.orderIs, State.order] at h4
  by_cases hm : i ∈ s.slotsWith q
  · have hq := h4.mp hm
    rw [if_pos hm]
    revert hq
    cases (s.slot i).order with
    | none => simp
    | some o => intro hq; exact (if_pos hq).symm
  · have hq := fun h => hm (h4.mpr h)
    rw [if_neg hm]
    revert hq
    cases (s.slot i).order with
    | none => simp
    | some o => intro hq; exact (if_neg hq).symm

end Sys2Proof.Machine
end

