-- ==== Sys2Proof/Laws/Losses.lean ====
section
/-! SUPPORT. The loss actions of revoked claims (R51, R30): what giving up one claim, and then a list of claims, does
to each line, each pair and the held claims. -/

namespace Sys2Proof.Machine

@[simp] theorem freeLines_pair (s : State) (ls : List LineNo) (k : PairNo) :
    (ls.foldl State.freeLine s).pair k = s.pair k := by
  induction ls generalizing s with
  | nil => rfl
  | cons l ls ih => rw [List.foldl_cons, ih]; rfl

/-- A claim given up (R49): its lines are free, and under SAFE they and the bound pairs among them are safe. -/
theorem giveUp_line (s : State) (c : Claim) (a : LineAction) (x : LineNo) :
    (s.giveUp c a).line x = { s.line x with
      holder := if named c.lines x then none else (s.line x).holder
      asserted := if a == .safe && (named c.lines x || s.pairTouched c.lines x) then (s.line x).safe
        else (s.line x).asserted } := by
  have h : (s.giveUp c a).line x =
      ((linesOf c.lines).foldl State.freeLine (s.applyAction c.lines a)).line x := rfl
  rw [h, freeLines_line]
  cases a with
  | hold => simp only [State.applyAction]; split <;> simp_all
  | safe => rw [applySafe_line]; split <;> split <;> simp_all

/-- The pairs after a claim is given up (R30). -/
theorem giveUp_pair (s : State) (c : Claim) (a : LineAction) (k : PairNo) :
    (s.giveUp c a).pair k =
      if a == .safe && s.pairTouched c.lines (primary k) then
        { s.pair k with state := levelState (s.line (primary k)).safe (s.line (partner k)).safe }
      else s.pair k := by
  have h : (s.giveUp c a).pair k =
      ((linesOf c.lines).foldl State.freeLine (s.applyAction c.lines a)).pair k := rfl
  rw [h, freeLines_pair]
  cases a with
  | hold => rfl
  | safe => rw [applySafe_pair]; simp

@[simp] theorem levelState_ne_unbound (a b : Bool) : levelState a b ≠ .unbound := by
  cases a <;> cases b <;> decide

/-- Giving a claim up binds and unbinds no pair. -/
@[simp] theorem giveUp_pairBound (s : State) (c : Claim) (a : LineAction) (k : PairNo) :
    (s.giveUp c a).pairBound k = s.pairBound k := by
  unfold State.pairBound
  rw [giveUp_pair]
  split
  · rename_i h
    have hb : s.pairBound k = true := by
      simp only [State.pairTouched, pairOf_primary, Bool.and_eq_true] at h; exact h.2.1
    unfold State.pairBound at hb
    rw [hb]
    simp
  · rfl

@[simp] theorem giveUp_pairTouched (s : State) (c : Claim) (a : LineAction) (m : LineMask) (l : LineNo) :
    (s.giveUp c a).pairTouched m l = s.pairTouched m l := by
  simp [State.pairTouched]

/-- Each claim of the list is given up with its own loss action (R51). -/
def State.revoke (s : State) (l : List Claim) : State := l.foldl (fun s c => s.giveUp c c.loss) s

/-- The lines after the revocations. -/
theorem revoke_line (l : List Claim) (s : State) (x : LineNo) :
    (s.revoke l).line x = { s.line x with
      holder := if l.any (fun c => named c.lines x) then none else (s.line x).holder
      asserted :=
        if l.any (fun c => c.loss == .safe && (named c.lines x || s.pairTouched c.lines x)) then
          (s.line x).safe
        else (s.line x).asserted } := by
  induction l generalizing s with
  | nil => rfl
  | cons c l ih =>
    have h : s.revoke (c :: l) = (s.giveUp c c.loss).revoke l := rfl
    rw [h, ih, giveUp_line]
    simp only [giveUp_pairTouched, List.any_cons]
    have hif : ∀ {α : Type} (p q : Bool) (a b : α),
        (if q = true then a else if p = true then a else b) = if (p || q) = true then a else b := by
      intro α p q a b; cases p <;> cases q <;> rfl
    rw [hif, hif]
    rfl

/-- The pairs after the revocations. -/
theorem revoke_pair (l : List Claim) (s : State) (k : PairNo) :
    (s.revoke l).pair k =
      if l.any (fun c => c.loss == .safe && s.pairTouched c.lines (primary k)) then
        { s.pair k with state := levelState (s.line (primary k)).safe (s.line (partner k)).safe }
      else s.pair k := by
  induction l generalizing s with
  | nil => rfl
  | cons c l ih =>
    have h : s.revoke (c :: l) = (s.giveUp c c.loss).revoke l := rfl
    rw [h, ih, giveUp_pair]
    simp only [giveUp_pairTouched, giveUp_line, List.any_cons, Bool.or_eq_true]
    split <;> split <;> simp_all

/-- The held claims after the revocations. -/
theorem revoke_held (l : List Claim) (s : State) :
    (s.revoke l).held = s.held.filter (fun x => l.all (fun c => x.id != c.id)) := by
  induction l generalizing s with
  | nil => simp [State.revoke]
  | cons c l ih =>
    have h : s.revoke (c :: l) = (s.giveUp c c.loss).revoke l := rfl
    have hg : (s.giveUp c c.loss).held = (s.applyAction c.lines c.loss).held.filter (fun x => x.id != c.id) := by
      have : ∀ (ls : List LineNo) (u : State), (ls.foldl State.freeLine u).held = u.held := by
        intro ls; induction ls with
        | nil => intro u; rfl
        | cons y ls ih => intro u; rw [List.foldl_cons, ih]; rfl
      simp [State.giveUp, this]
    have ha : (s.applyAction c.lines c.loss).held = s.held := by
      rw [applyAction_frame s c.lines c.loss]
    rw [h, ih, hg, ha, List.filter_filter]
    simp [List.all_cons, Bool.and_comm]

end Sys2Proof.Machine
end

