-- ==== Sys2Proof/Laws/Notices.lean ====
section
/-! SUPPORT. What the appending of a notice does to each port (R158 to R160): `PortRec.noticed` at the station's own
port, when the station is BOUND, and nothing anywhere else. -/

namespace Sys2Proof.Machine

/-- A notice appended for a BOUND station, as one record. -/
theorem enqueue_choose (r : PortRec) (b : Byte) (x : Notice) :
    (r.enqueue x).choose true b = r.noticed b x := by
  unfold PortRec.enqueue PortRec.choose PortRec.noticed satInc
  simp only [Config.noticeQueue, show (BitVec.allOnes 8 : Byte) = 255 from rfl]
  by_cases hq : r.notices.length < 8 <;> simp only [hq, if_true, if_false] <;>
    cases ht : r.transmitter <;> cases hr : r.replySlot <;> simp <;>
    cases hn : r.notices <;> simp_all

theorem appendNotice_unbound {s : State} {n : StationNo} (h : s.isBound n = false) (x : Notice) :
    s.appendNotice n x = s := by simp [State.appendNotice, h]

theorem appendNotice_bound {s : State} {n : StationNo} (h : s.isBound n = true) (x : Notice) :
    s.appendNotice n x = s.setPort n ((s.port n).noticed (s.sessionByte n) x) := by
  have hb : ∀ r, (s.setPort n r).isBound n = true := fun _ => h
  have hs : ∀ r, (s.setPort n r).sessionByte n = s.sessionByte n := fun _ => rfl
  simp only [State.appendNotice, h, if_true, State.transmitChoice, State.setPort_port_self, hb, hs,
    enqueue_choose]
  simp [State.setPort]

theorem appendNotice_port (s : State) (n m : StationNo) (x : Notice) :
    (s.appendNotice n x).port m =
      if m = n ∧ s.isBound n = true then (s.port n).noticed (s.sessionByte n) x else s.port m := by
  by_cases h : s.isBound n = true
  · rw [appendNotice_bound h, State.setPort_port]; simp [h]
  · simp [appendNotice_unbound (by simpa using h), h]

/-- Each station that is told receives the notice at its own port; every other port stays. -/
theorem appendNotices_port (s : State) (who : StationNo → Bool) (x : Notice) (m : StationNo) :
    (s.appendNotices who x).port m =
      if who m = true ∧ s.isBound m = true then (s.port m).noticed (s.sessionByte m) x
      else s.port m := by
  have key : ∀ (l : List StationNo), l.Nodup → ∀ u : State,
      (l.foldl (fun s n => s.appendNotice n x) u).port m =
        if m ∈ l ∧ u.isBound m = true then (u.port m).noticed (u.sessionByte m) x else u.port m := by
    intro l
    induction l with
    | nil => intro _ u; simp
    | cons n l ih =>
      intro hd u
      have hn := List.nodup_cons.mp hd
      have hf := appendNotice_frame u n x
      have hb : (u.appendNotice n x).isBound m = u.isBound m := by
        simp [State.isBound, hf.station]
      have hs : (u.appendNotice n x).sessionByte m = u.sessionByte m := by
        simp [State.sessionByte, hf.station]
      rw [List.foldl_cons, ih hn.2, hb, hs, appendNotice_port]
      by_cases hm : m = n
      · subst hm; simp [hn.1]
      · simp [hm]
  unfold State.appendNotices
  rw [key _ ((List.nodup_finRange 4).filter _)]
  simp

end Sys2Proof.Machine
end

