-- ==== Sys2Proof/Laws/Orders.lean ====
section
/-! SUPPORT. Commands and orders: a command reads only the timebase and the line unit's records, so it acts alike whatever
the rest of the state is; and what an order's own notices leave. -/

namespace Sys2Proof.Machine

/-- `u` with the timebase, the line records, the pair units and the groups of `s`. -/
def State.withLinesOf (u s : State) : State :=
  { u with tb := s.tb, lines := s.lines, pairs := s.pairs, groups := s.groups }

theorem turnToPrimary_withLinesOf (u s : State) (k : PairNo) :
    (u.withLinesOf s).turnToPrimary k = u.withLinesOf (s.turnToPrimary k) := by
  unfold State.turnToPrimary
  have h : ((u.withLinesOf s).pair k).gap = (s.pair k).gap := rfl
  rw [h]
  split <;> rfl

theorem turnToPartner_withLinesOf (u s : State) (k : PairNo) :
    (u.withLinesOf s).turnToPartner k = u.withLinesOf (s.turnToPartner k) := by
  unfold State.turnToPartner
  have h : ((u.withLinesOf s).pair k).gap = (s.pair k).gap := rfl
  rw [h]
  split <;> rfl

theorem pairAssert_withLinesOf (u s : State) (k : PairNo) :
    (u.withLinesOf s).pairAssert k = u.withLinesOf (s.pairAssert k) := by
  unfold State.pairAssert
  have h : ((u.withLinesOf s).pair k).state = (s.pair k).state := rfl
  rw [h, turnToPrimary_withLinesOf]
  cases (s.pair k).state <;> rfl

theorem pairDeassert_withLinesOf (u s : State) (k : PairNo) :
    (u.withLinesOf s).pairDeassert k = u.withLinesOf (s.pairDeassert k) := by
  unfold State.pairDeassert
  have h : ((u.withLinesOf s).pair k).state = (s.pair k).state := rfl
  rw [h, turnToPartner_withLinesOf]
  cases (s.pair k).state <;> rfl

/-- A command acts on the line unit's records alone (R20, R21). -/
theorem command_withLinesOf (u s : State) (l : LineNo) (c : LineCommand) :
    (u.withLinesOf s).command l c = u.withLinesOf (s.command l c) := by
  unfold State.command
  have h1 : (u.withLinesOf s).groupNormal (groupOf l) = s.groupNormal (groupOf l) := rfl
  have h2 : (u.withLinesOf s).pairBound (pairOf l) = s.pairBound (pairOf l) := rfl
  rw [h1, h2]
  split
  · split
    · unfold State.pairCommand
      have h3 : ((u.withLinesOf s).pair (pairOf l)).state = (s.pair (pairOf l)).state := rfl
      rw [h3, pairAssert_withLinesOf, pairDeassert_withLinesOf]
      cases c with
      | assert => rfl
      | deassert => rfl
      | invert => dsimp only; split <;> rfl
      | level a => dsimp only; split <;> rfl
    · rfl
  · rfl

/-- A gap completion acts on the line unit's records alone (R25). -/
theorem completeGap_withLinesOf (u s : State) (k : PairNo) :
    (u.withLinesOf s).completeGap k = u.withLinesOf (s.completeGap k) := by
  unfold State.completeGap
  have h : ((u.withLinesOf s).pair k).state = (s.pair k).state := rfl
  have ht : (u.withLinesOf s).tb = s.tb := rfl
  rw [h, ht]
  cases (s.pair k).state with
  | gapToPrimary e => dsimp only; split <;> rfl
  | gapToPartner e => dsimp only; split <;> rfl
  | unbound => rfl
  | bothOff => rfl
  | primaryOn => rfl
  | partnerOn => rfl

/-- A state that differs from `s` in no record of the line unit takes the same command to the same lines and pairs. -/
theorem command_of_same {s u : State} (h : u = u.withLinesOf s) (l : LineNo) (c : LineCommand) :
    u.command l c =
      { u with lines := (s.command l c).lines, pairs := (s.command l c).pairs } := by
  have hf : OnlyLines s (s.command l c) := command_frame s l c
  conv_lhs => rw [h, command_withLinesOf, hf]
  rw [h]
  rfl

/-- The appending of a notice, in the words of the statements. -/
theorem appendNotice_eq_told (s : State) (n : StationNo) (x : Notice) :
    s.appendNotice n x = s.told n x := by
  unfold State.told
  split
  · rename_i h; exact appendNotice_bound h x
  · rename_i h; exact appendNotice_unbound (by simpa using h) x

/-- FIRED, where the edge is not one applied at once at a POST (R77). -/
theorem fired_eq_toldFired (s : State) {cause : EdgeCause} (hc : cause ≠ .atPost) (h : Handle)
    (o : Order) : s.fired cause h o = s.toldFired h o s.tb.t := by
  unfold State.fired State.toldFired Order.owesFired
  rw [appendNotice_eq_told]
  have : (cause != .atPost && o.notify.wantsFirst && !o.started) = true ↔
      (o.notify = .first ∨ o.notify = .both) ∧ o.started = false := by
    cases cause <;> cases o.notify <;> cases o.started <;> simp_all [Notify.wantsFirst]
  simp only [this]

/-- An order applied at once at a POST sends no FIRED (R69). -/
theorem fired_atPost (s : State) (h : Handle) (o : Order) : s.fired .atPost h o = s := rfl

/-- ENDED (R78). -/
theorem ended_eq_toldEnded (s : State) (h : Handle) (o : Order) (r : EndReason) :
    s.ended h o r = s.toldEnded h o r s.tb.t := by
  unfold State.ended State.toldEnded
  rw [appendNotice_eq_told]
  cases o.notify <;> simp [Notify.wantsEnd]

/-- The place of a slot in the schedule list (R62). -/
theorem insertPlace_placed (s : State) (i : SlotNo) (o : Order) (l : List SlotNo) :
    s.placed i o l (s.insertPlace o i l) := by
  have hb : ∀ b, s.standsBefore o b = true ↔ s.ahead o b := by
    intro b
    simp only [State.standsBefore, Bool.or_eq_true, Bool.and_eq_true, decide_eq_true_eq]
    exact Iff.rfl
  induction l with
  | nil => exact ⟨[], [], rfl, rfl, by simp, by simp⟩
  | cons j rest ih =>
    obtain ⟨before, after, h1, h2, h3, h4⟩ := ih
    unfold State.insertPlace
    cases hj : s.order j with
    | none =>
      refine ⟨j :: before, after, by rw [h1]; rfl, by dsimp only; rw [h2]; rfl, ?_, h4⟩
      intro x hx b hbx
      rcases List.mem_cons.mp hx with rfl | hx
      · rw [hj] at hbx; cases hbx
      · exact h3 x hx b hbx
    | some b =>
      dsimp only
      by_cases hs : s.standsBefore o b = true
      · rw [if_pos hs]
        refine ⟨[], j :: rest, rfl, rfl, by simp, ?_⟩
        intro x r c hx hc
        obtain ⟨rfl, rfl⟩ := List.cons.inj hx
        rw [hj] at hc
        obtain rfl := Option.some.inj hc
        exact (hb b).mp hs
      · rw [if_neg hs]
        refine ⟨j :: before, after, by rw [h1]; rfl, by rw [h2]; rfl, ?_, h4⟩
        intro x hx c hc
        rcases List.mem_cons.mp hx with rfl | hx
        · rw [hj] at hc
          obtain rfl := Option.some.inj hc
          exact fun h => hs ((hb b).mpr h)
        · exact h3 x hx c hc

/-- The lowest-numbered free slot (R55). -/
theorem lowestFree_of {s : State} {i : SlotNo} (h : s.lowestFreeIs i) : s.lowestFree = some i := by
  unfold State.lowestFree
  rw [List.find?_eq_some_iff_getElem]
  refine ⟨by simp [h.1], i.val, by simp, by simp, ?_⟩
  intro j hj
  have := h.2 ⟨j, by omega⟩ (by simpa [Fin.lt_def] using hj)
  simpa [Option.isSome_iff_ne_none] using this

end Sys2Proof.Machine
end

