-- ==== Sys2Proof/Laws/Requests.lean ====
section
/-! SUPPORT. The taking of a request, once: what a ready request does (replayed, refused by the common checks, or
executed by its owner), and the port that an answer leaves. -/

namespace Sys2Proof.Machine

/-- Station and port records are apart. -/
theorem setPort_setStation (s : State) (p n : StationNo) (a : PortRec) (b : StationRec) :
    (s.setPort p a).setStation n b = (s.setStation n b).setPort p a := rfl

@[simp] theorem restartLease_eq_leased (s : State) (n : StationNo) : s.restartLease n = s.leased n := rfl

@[simp] theorem leased_port (s : State) (n x : StationNo) : (s.leased n).port x = s.port x := rfl

/-- The port after step 4 of R155, whatever stood in it. -/
theorem answer_eq (s : State) (p : StationNo) (f : RequestFrame) (c : ReplyCode)
    (payload : List Byte) : s.answer p f c payload = s.replied p f c payload := by
  unfold State.answer State.transmitChoice PortRec.choose State.replied PortRec.replied
  simp only [State.setPort_port_self, State.setPort_setPort]
  cases h : (s.port p).transmitter <;> simp

/-- A request leaves its queue and is answered. -/
theorem dequeue_answer (s : State) (p : StationNo) (f : RequestFrame) (c : ReplyCode)
    (payload : List Byte) :
    (s.dequeue p).answer p f c payload = s.answered p f c payload := by
  rw [answer_eq, State.dequeue]
  simp [State.answered, PortRec.answered, State.replied]

/-- The same, with the lease restarted between. -/
theorem dequeue_leased_answer (s : State) (p n : StationNo) (f : RequestFrame) (c : ReplyCode)
    (payload : List Byte) :
    ((s.dequeue p).leased n).answer p f c payload = (s.leased n).answered p f c payload := by
  have h : (s.dequeue p).leased n = (s.leased n).dequeue p := rfl
  rw [h, dequeue_answer]

/-- A replay: the cached reply goes to the slot, and an idle transmitter begins it. -/
theorem replay_eq (s : State) (p : StationNo) (r : Reply) :
    s.replay p r = (s.restartIfBound p).setPort p { s.port p with
      replySlot := if (s.port p).transmitter = .idle then none else some r
      transmitter :=
        if (s.port p).transmitter = .idle then .sending r.frame 0 else (s.port p).transmitter } := by
  have hp : (s.restartIfBound p).port p = s.port p := by
    unfold State.restartIfBound; split <;> rfl
  unfold State.replay State.transmitChoice PortRec.choose
  dsimp only
  simp only [State.setPort_port_self, State.setPort_setPort, hp]
  cases h : (s.port p).transmitter <;> simp

/-- What a ready request can be (R155): it is taken. -/
theorem ready_takeable {s : State} {p : StationNo} {f : RequestFrame} (h : s.ready p f) :
    s.takeable p = some f := by
  obtain ⟨h1, h2, h3, -⟩ := h
  simp [State.takeable, h1, h2, h3]

/-- A ready request is not replayed (R156). -/
theorem ready_not_replayed {s : State} {p : StationNo} {f : RequestFrame} (h : s.ready p f) :
    s.replayOf p f = none := by
  obtain ⟨-, -, -, -, h4⟩ := h
  unfold State.replayOf
  split
  · rename_i hl
    cases hc : (s.port p).replyCache with
    | none => rfl
    | some r => exact absurd ⟨hl, by simp [hc]⟩ h4
  · rfl

/-- A ready request of the row is executed (R155). -/
theorem take_ready {s : State} {p : StationNo} {f : RequestFrame} {row : RequestFrame → Bool}
    {owner : StationNo → RequestFrame → State → OwnerReply} (h : s.ready p f) (hrow : row f = true) :
    s.take p row owner = (s.dequeue p).execute p f owner := by
  simp [State.take, State.serve, ready_takeable h, hrow, h.2.2.2.1, ready_not_replayed h]

/-- The session check passes for a request admitted in its session (R135). -/
theorem admits_passes {s : State} {p : StationNo} {f : RequestFrame} {c : RequestCode}
    (h : s.admits p f c) (hc : c ≠ .bind) : s.commonRefusal p f = none := by
  obtain ⟨-, hcode, hlen, hs, hn⟩ := h
  cases c <;> simp_all [State.commonRefusal, State.sessionRefusal]

/-- What an admitted request does (R155): the lease restarts, the owner acts on the state without the request,
and the reply is placed; the port's part of a teardown follows the reply of a request that ended its
session. -/
theorem take_admitted {s : State} {p : StationNo} {f : RequestFrame} {c : RequestCode}
    {row : RequestFrame → Bool} {owner : StationNo → RequestFrame → State → OwnerReply}
    (h : s.admits p f c) (hc : c ≠ .bind) (hrow : row f = true) :
    s.take p row owner =
      (let r := owner p f ((s.dequeue p).leased p)
       if r.endsSession then (r.state.answer p f r.outcome r.payload).portTeardown p true
       else r.state.answer p f r.outcome r.payload) := by
  have hp : ((s.dequeue p).leased p).commonRefusal p f = none := by
    have := admits_passes h hc
    simpa [State.commonRefusal, State.sessionRefusal, State.leased, State.dequeue, State.isBound]
      using this
  obtain ⟨hr, hcode, hlen, hs, hn⟩ := h
  rw [take_ready hr hrow]
  have hl : (s.dequeue p).restartIfCurrent p f.session = (s.dequeue p).leased p := by
    simp [State.restartIfCurrent, State.isBound, State.dequeue, hs, hn]
  unfold State.execute
  dsimp only
  rw [hl, hp]

/-- An admitted request that does not end its session, by what its owner answers. -/
theorem take_admitted_eq {s u : State} {p : StationNo} {f : RequestFrame} {c : RequestCode}
    {row : RequestFrame → Bool} {owner : StationNo → RequestFrame → State → OwnerReply}
    {outcome : ReplyCode} {payload : List Byte}
    (h : s.admits p f c) (hc : c ≠ .bind) (hrow : row f = true)
    (ho : owner p f ((s.dequeue p).leased p) =
      { state := u, outcome := outcome, payload := payload }) :
    s.take p row owner = u.replied p f outcome payload := by
  rw [take_admitted h hc hrow, ho]
  exact answer_eq u p f outcome payload

/-- A reply to the state with the request gone from the queue, as the answer to the state with it. -/
theorem replied_eq_answered {s u : State} {p : StationNo} (f : RequestFrame) (outcome : ReplyCode)
    (payload : List Byte)
    (hu : u = { s with ports := (s.dequeue p).ports }) :
    u.replied p f outcome payload = s.answered p f outcome payload := by
  subst hu
  have h : ({ s with ports := (s.dequeue p).ports } : State) = s.dequeue p := rfl
  rw [h]
  simp [State.replied, State.dequeue, State.answered, PortRec.answered]

/-- An admitted request whose owner changes nothing: the lease restarts and the reply is placed. -/
theorem take_admitted_unchanged {s : State} {p : StationNo} {f : RequestFrame} {c : RequestCode}
    {row : RequestFrame → Bool} {owner : StationNo → RequestFrame → State → OwnerReply}
    {outcome : ReplyCode} {payload : List Byte}
    (h : s.admits p f c) (hc : c ≠ .bind) (hrow : row f = true)
    (ho : owner p f ((s.dequeue p).leased p) =
      { state := (s.dequeue p).leased p, outcome := outcome, payload := payload }) :
    s.take p row owner = (s.leased p).answered p f outcome payload := by
  rw [take_admitted h hc hrow, ho]
  exact dequeue_leased_answer s p p f outcome payload

end Sys2Proof.Machine
end

