-- ==== Sys2Proof/Laws/Takings.lean ====
section
/-! SUPPORT. What comes before a command, once: a port that has no request due takes none (R155), and where no timer
stands at 0 no expiry is owed (R9, R45, R142), so that a command of such a state acts on that state itself. -/

namespace Sys2Proof.Machine

/-- A settled port has nothing that can be taken (R155). -/
theorem takeable_of_settled {s : State} {p : StationNo} (h : (s.port p).settled) :
    s.takeable p = none := by
  unfold State.takeable
  rcases h with h | ⟨h, -⟩
  · simp [h]
  · simp [Option.isSome_iff_ne_none.mpr h]

@[simp] theorem takeHead_of_settled {s : State} {p : StationNo} (h : (s.port p).settled) :
    s.takeHead p = s := by
  simp [State.takeHead, State.take, State.serve, takeable_of_settled h]

@[simp] theorem serveHead_of_settled {s : State} {p : StationNo} (h : (s.port p).settled) :
    s.serveHead p = s := by
  simp [State.serveHead, State.serve, takeable_of_settled h]

/-- Where no request's first instant has come, nothing is taken. -/
@[simp] theorem takeDue_of_settled {s : State} (h : s.settled) : s.takeDue = s := by
  simp [State.takeDue, List.finRange_succ, takeHead_of_settled (h _)]

/-- Where no request waits, none meets a lease boundary. -/
@[simp] theorem serveDue_of_settled {s : State} (h : s.settled) : s.serveDue = s := by
  simp [State.serveDue, List.finRange_succ, serveHead_of_settled (h _)]

/-- Without an owed expiry no lease lapses (R142). -/
@[simp] theorem lapse_of_not_owed {s : State} {n : StationNo} (h : s.leaseOwed n = false) :
    s.lapse n = s := by
  simp [State.lapse, h]

/-- Where no expiry is owed, none is made. -/
@[simp] theorem expireOwed_of_unowed {s : State} (h : s.unowed) : s.expireOwed = s := by
  obtain ⟨ha, hw, hl⟩ := h
  have h1 : s.armExpiry = s := if_neg ha
  have h2 : s.expireWaits = s := by
    refine if_pos ?_
    simpa [State.expired] using hw
  simp [State.expireOwed, h1, h2, List.finRange_succ, lapse_of_not_owed (hl _)]

/-- A request of a station whose expiry is owed finds the expiry (R142, R143). -/
theorem take_owed {s : State} {p : StationNo} {f : RequestFrame} {row : RequestFrame → Bool}
    {owner : StationNo → RequestFrame → State → OwnerReply} (h : s.takeable p = some f)
    (hrow : row f = true) (ho : s.leaseOwed p = true) : s.take p row owner = s.lapse p := by
  simp [State.take, h, hrow, ho]

/-- Where the station's expiry is not owed, its request is served. -/
theorem take_not_owed {s : State} {p : StationNo} {row : RequestFrame → Bool}
    {owner : StationNo → RequestFrame → State → OwnerReply} (ho : s.leaseOwed p = false) :
    s.take p row owner = s.serve p row owner := by
  simp [State.take, ho]

/-- What a lease boundary does where no expiry is owed and no request meets it (R15): every running timer is
decremented, and the lease clock counts. -/
theorem meetBoundary_eq {s : State} (hs : s.settled) (hu : s.unowed) :
    s.meetBoundary = s.leaseUnitEnds.armUnitEnds := by
  have h : s.leaseUnitEnds.settled := hs
  unfold State.meetBoundary
  simp only [expireOwed_of_unowed hu, serveDue_of_settled h]
  cases ha : s.tb.armTimer with
  | some x => rfl
  | none =>
    have hb : { s.tb with armTimer := none } = s.tb := by rw [← ha]
    simp only [State.armUnitEnds, State.leaseUnitEnds, ha, Option.map_none, hb, Option.isSome_none,
      Bool.false_eq_true, if_false]

/-- A command of a state at work acts on that state itself. -/
theorem acting_atWork {s : State} (h : s.atWork) (f : State → State) : acting s f = .next (f s) := by
  simp [acting, working, h.1, takeDue_of_settled h.2]

/-- While power-on reset lasts, a command that waits for requests changes nothing (R177). -/
theorem acting_inReset {s : State} (h : s.inReset = true) (f : State → State) : acting s f = .next s := by
  simp [acting, working, h]

end Sys2Proof.Machine
end

