-- ==== Sys2Proof/WellFormed.lean ====
section
/-! DEFINITION. Which terms of `Instr` spell a command of the table. Station, pair and input numbers are in
range by their types. One row names a kind of character: FRAME_END_EARLY, whose character has stop bit 0,
or marker 1, or is a length byte above 48 (opcode_table.json, R148). -/

namespace Sys2Proof

/-- A character that can end a frame early under R148: stop bit 0 (FRAMING), marker 1 (SHORT), or a
length byte above 48 (LONG). -/
def canEndFrame (data : Byte) (marker stop : Bool) : Bool :=
  !stop || marker || decide (48 < data.toNat)

/-- A well-formed command: the operands are such as the table's row admits. -/
def Instr.wellFormed : Instr → Bool
  | .bind _ => true
  | .unbind _ => true
  | .keepalive _ => true
  | .portStatus _ => true
  | .timeRead _ => true
  | .timeStartImmediate _ => true
  | .timeStartOnMark _ => true
  | .timeStop _ => true
  | .claim _ => true
  | .release _ => true
  | .shape _ => true
  | .lineRead _ => true
  | .pairBind _ => true
  | .pairUnbind _ => true
  | .post _ => true
  | .cancelNow _ => true
  | .cancelAtEnd _ => true
  | .revise _ => true
  | .flush _ => true
  | .orderRead _ => true
  | .guardMap _ => true
  | .rearm _ => true
  | .subscribe _ => true
  | .unsubscribe _ => true
  | .readCaptures _ => true
  | .unknownRequest _ => true
  | .frameComplete _ _ => true
  | .frameEndEarly _ data marker stop => canEndFrame data marker stop
  | .lineBreak _ => true
  | .breakEnd _ => true
  | .transmitEnd _ => true
  | .tick => true
  | .firing => true
  | .gapCompletion _ => true
  | .markRisingEdge => true
  | .armTimerExpiry => true
  | .leaseBoundary => true
  | .leaseExpiry _ => true
  | .waitExpiry => true
  | .guardActivation _ => true
  | .guardDeactivation _ => true
  | .captureEdge _ _ => true
  | .filterClose _ _ => true
  | .resetBegin => true
  | .powerOnResetEnd _ _ _ _ => true
  | .characterReceived _ _ _ _ => true

end Sys2Proof
end

