-- ==== Sys2Proof/Tests/Slice0.lean ====
section
/-! SUPPORT. Tests of the model: ill-formed terms, the manual's worked numbers, and for every statement with
hypotheses a concrete state and operands that meet them (`meets_<statement>`). -/

-- One theorem after the other: proving them at once takes more threads than the build has memory for.
set_option Elab.async false

namespace Sys2Proof.Tests

open Sys2Proof.Machine

/-! ### A state to test on -/

/-- The station record of a BOUND station in session 1, with lease 100 and quota 8. -/
def boundStation : StationRec := ⟨.bound, some 1, 1, some 100, some 100, 8⟩

/-- Every station BOUND in session 1, the timebase RUNNING at 1000 with d 0 and h 24, nothing else done since
power-on reset. -/
def bench : State :=
  { State.reset with
    tb := ⟨.running, 1000, 0, 24, none, none⟩
    stations := Vector.replicate 4 boundStation }

/-- A request frame of session 1 with sequence 1. -/
def request (k : RequestCode) (payload : List Byte) : RequestFrame := ⟨1, 1, k.byte, payload⟩

/-- The state with that one request in port `p`'s queue. -/
def asks (s : State) (p : StationNo) (k : RequestCode) (payload : List Byte) : State :=
  s.setPort p { s.port p with requests := [request k payload] }

/-- The request is admitted there, and `h` holds of the state and the frame. -/
abbrev Meets (s : State) (p : StationNo) (k : RequestCode) (payload : List Byte)
    (h : State → RequestFrame → Prop) : Prop :=
  (asks s p k payload).admits p (request k payload) k ∧ h (asks s p k payload) (request k payload)

/-- The state with the timebase as given. -/
def timed (s : State) (state : TimebaseState) : State := { s with tb := { s.tb with state := state } }

/-- The state with lines of the mask held by station `n` under claim `id`. -/
def holding (s : State) (id : Byte) (n : StationNo) (m : LineMask) : State :=
  { s with
    held := s.held ++ [⟨id, n, m, .hold⟩]
    lines := Vector.ofFn (fun l =>
      if named m l then { s.line l with holder := some id, granted := true, driveOn := true } else s.line l) }

/-- The state with a WAITING claim of station `n`. -/
def awaiting (s : State) (id : Byte) (n : StationNo) (m : LineMask) (deadline : Half) : State :=
  { s with waiting := s.waiting ++ [⟨⟨id, n, m, .hold⟩, deadline⟩] }

/-- An order of station 0 with this body and state, tag 5, notify BOTH. -/
def orderOf (b : OrderBody) (x : OrderState) : Order :=
  { station := 0, body := b, trigger := none, state := x, ending := false, started := false
    late := .fire, notify := .both, tag := 5, postSeq := 0 }

/-- The state with a SCHEDULED order in slot 0, alone in the schedule list. -/
def scheduled (s : State) (o : Order) : State :=
  { s.setOrder 0 o with schedule := [0], postSeq := 1 }

/-- A train of width 4 and period 10 with 3 periods to count. -/
def trainOf : TrainRec := ⟨4, 10, some 3, none, false⟩

/-- The state with the frame `f` alone in port `p`'s queue. -/
def queued (s : State) (p : StationNo) (f : RequestFrame) : State :=
  s.setPort p { s.port p with requests := [f] }

/-- The state with the session of station `n` as given. -/
def inSession (s : State) (n : StationNo) (x : SessionState) : State :=
  s.setStation n { s.station n with session := x }

/-! ### Ill-formed commands, and words -/

/-- R148: an ordinary character (stop bit 1, marker 0, a length byte of 48) ends no frame. -/
theorem test_wellFormed_refuses_ordinary_character :
    (Instr.frameEndEarly 0 48 false true).wellFormed = false := by decide

/-- R148: stop bit 0, marker 1 and a length byte of 49 each end one. -/
theorem test_wellFormed_admits_enders :
    (Instr.frameEndEarly 0 48 false false).wellFormed = true ∧
      (Instr.frameEndEarly 0 48 true true).wellFormed = true ∧
      (Instr.frameEndEarly 0 49 false true).wellFormed = true := by decide

/-- The table gives no row bits, so no word spells a command. -/
theorem test_no_word_spells_a_command : decodeTableWord 16 0x1234 = none := by decide

/-! ### Numbers that the manual works out -/

/-- R151: the check value of the characters 1 to 9 is 29B1h. -/
theorem test_checkValue_of_123456789 :
    checkValue [0x31, 0x32, 0x33, 0x34, 0x35, 0x36, 0x37, 0x38, 0x39] = 0x29B1 := by decide +kernel

/-- The check value of one byte 00h is E1F0h. -/
theorem test_checkValue_of_zero : checkValue [0] = 0xE1F0 := by decide +kernel

/-- The payload of a POST: kind, target, action, mode, input, due, width, period, count, policies, tag. -/
def posting (kind target action mode input : Byte) (due : Time) (width period : Span) (count : Half)
    (policies : Byte) (tag : Half) : List Byte :=
  [kind, target, action, mode, input] ++ bytes32 due ++
    [width.extractLsb' 16 8, width.extractLsb' 8 8, width.extractLsb' 0 8] ++
    [period.extractLsb' 16 8, period.extractLsb' 8 8, period.extractLsb' 0 8] ++
    bytes16 count ++ [policies] ++ bytes16 tag

/-- The command leads to a state with the property. -/
def leadsTo (c : Instr) (s : State) (q : State → Bool) : Bool :=
  match exec c s with
  | .next t => q t
  | .fault _ => false
  | .refused _ => false

/-- The outcome and payload of the reply in the cache of port `p`. -/
def answerOf (s : State) (p : StationNo) : Option (ReplyCode × List Byte) :=
  (s.port p).replyCache.map (fun r => (r.outcome, r.payload))

/-! ### Steps of the manual's worked examples -/

/-- The state of 1.11 before the TIME_READ: ARMED by station 0 with d 3, h 22 and 40 lease units left. -/
def armedBench : State := { bench with tb := ⟨.armed, 0, 3, 22, some 0, some 40⟩ }

theorem test_time_read_of_1_11 :
    leadsTo (.timeRead 1) (asks armedBench 1 .timeRead []) (fun t =>
      answerOf t 1 = some (.ok, [1, 0, 0, 0, 0, 3, 22, 0, 0, 40])) = true := by decide +kernel

/-- 2.9: pair 1 bound with gap 4 in PARTNER_ON, a PULSE on L2 due. -/
def overtaken (x : PairState) (partnerOn : Bool) (b : OrderBody) (phase : Phase) : State :=
  (scheduled ((holding bench 7 0 0x000C).setPair 1 ⟨x, 4⟩) (orderOf b (.scheduled 1000 phase))).setLine 3
    ⟨partnerOn, .normal, false, true, some 7, true⟩

theorem test_pulse_starts_gap_of_2_9 :
    leadsTo .firing (overtaken .partnerOn true (.pulse 2 10) .leading) (fun t =>
      (t.pair 1).state = .gapToPrimary 1004 ∧ (t.line 3).asserted = false ∧
        (t.order 0).map (fun o => o.state) = some (.scheduled 1010 .trailing)) = true := by
  decide +kernel

theorem test_gap_completes_before_order_of_2_9 :
    leadsTo .firing (overtaken (.gapToPrimary 1000) false (.step 2 .deassert) .absent) (fun t =>
      (t.pair 1).state = .gapToPartner 1004 ∧ (t.line 2).asserted = false ∧ t.order 0 = none) = true := by
  decide +kernel

/-- 3.9 before the release of claim 3: station 0 holds L4 and L5 with a PULSE on L5; stations 2 and 3 wait. -/
def releasing : State :=
  awaiting (awaiting (scheduled (holding bench 3 0 0x0030) (orderOf (.pulse 5 10) (.scheduled 2000 .leading)))
    5 2 0x0050 100) 6 3 0x00C0 20

theorem test_release_of_3_9 :
    leadsTo (.release 0) (asks releasing 0 .release [3, 1]) (fun t =>
      answerOf t 0 = some (.ok, [1]) ∧ t.held.map (fun c => c.id) = [5] ∧
        t.waiting.map (fun w => w.claim.id) = [6] ∧ (t.line 5).holder = none ∧ (t.line 6).holder = some 5 ∧
        (t.port 2).transmitter = .sending (Notice.frame (.granted 5 0x0050) 0 1 0) 0) = true := by
  decide +kernel

theorem test_wait_expiry_of_3_9 :
    leadsTo .waitExpiry (awaiting bench 6 3 0x00C0 0) (fun t =>
      t.waiting = [] ∧
        (t.port 3).transmitter = .sending (Notice.frame (.waitExpired 6 0x00C0) 0 1 0) 0) = true := by
  decide +kernel

theorem test_late_pattern_of_4_11 :
    leadsTo (.post 2) (asks (holding bench 9 2 0x0700) 2 .post
        (posting 3 2 0x45 0 0 990 0 0 0 0x11 0)) (fun t =>
      answerOf t 2 = some (.okLate, [0, 0, 0, 0, 3, 232]) ∧ (t.line 8).asserted = false ∧
        (t.line 10).asserted = true ∧ t.slot 0 = ⟨1, none⟩) = true := by
  decide +kernel

/-- 5.7 at 210: the revised train makes its second period start. -/
theorem test_revision_made_of_5_7 :
    leadsTo .firing (scheduled (holding bench 12 0 0x1000)
        (orderOf (.train 12 ⟨4, 10, some 3, some ⟨8, 8⟩, true⟩) (.scheduled 1000 .leading))) (fun t =>
      (t.order 0).map (fun o => (o.body, o.state)) =
          some (.train 12 ⟨8, 8, some 2, none, true⟩, .scheduled 1008 .leading) ∧
        (t.line 12).asserted = true) = true := by
  decide +kernel

/-- 5.7 at 226: the count reaches 0 before the ending is looked at. -/
theorem test_train_complete_of_5_7 :
    leadsTo .firing (scheduled (holding bench 12 0 0x1000)
        { orderOf (.train 12 ⟨8, 8, some 1, none, true⟩) (.scheduled 1000 .leading) with
          ending := true }) (fun t =>
      t.order 0 = none ∧ (t.line 12).asserted = false ∧
        (t.port 0).transmitter =
          .sending (Notice.frame (.ended ⟨0, 0⟩ 5 .complete 1000) 0 1 0) 0) = true := by
  decide +kernel

/-- 6.7 at 1,140: L5 has safe level ASSERTED, L6 is in the asserted part of a pulse; stations 1 and 2 hold. -/
def guarded : State :=
  { ((holding (holding bench 20 1 0x0030) 21 2 0x0040).setLine 5 ⟨false, .normal, true, true, some 20, true⟩).setLine
      6 ⟨true, .normal, false, true, some 21, true⟩ with
    groups := #v[⟨.normal, .none⟩, ⟨.normal, .ga⟩, ⟨.normal, .gb⟩, ⟨.normal, .none⟩] }

theorem test_trip_of_6_7 :
    leadsTo (.guardActivation .ga) guarded (fun t =>
      (t.line 5).asserted = true ∧ (t.line 6).asserted = false ∧ (t.group 1).state = .tripped ∧
        (t.group 2).state = .normal ∧
        (t.port 1).transmitter = .sending (Notice.frame (.trip 1 .ga) 0 1 0) 0 ∧
        (t.port 2).transmitter = .sending (Notice.frame (.trip 1 .ga) 0 1 0) 0 ∧
        (t.port 0).transmitter = .idle) = true := by
  decide +kernel

/-- 7.10 at 5,030: the journal is full, its head is unread by station 1 alone. -/
def fullJournal : State :=
  { (bench.setInput 2 ⟨some ⟨.rising, 0⟩, 3, .watching (some .low)⟩) with
    captureSeq := 1064
    journal := (List.range 64).map (fun i => ⟨BitVec.ofNat 16 (1000 + i), 2, .rising, 0, 2⟩) }

theorem test_full_journal_of_7_10 :
    leadsTo (.captureEdge 2 .high) fullJournal (fun t =>
      t.journal.length = 64 ∧ t.journal.head?.map (fun r => r.seq) = some 1001 ∧ t.lostOf 1 = 1 ∧
        t.lostOf 0 = 0 ∧
        (t.port 0).transmitter = .sending (Notice.frame (.captureReady 1064 2) 0 1 0) 0) = true := by
  decide +kernel

/-- 10.8: a kind byte 07h fails the form check, and the refusal carries the six-byte payload. -/
theorem test_post_form_refusal_of_10_8 :
    leadsTo (.post 3) (asks bench 3 .post (posting 7 0 0 0 0 0 0 0 0 0 0)) (fun t =>
      answerOf t 3 = some (.badFormat, [0, 0, 0, 0, 0, 0])) = true := by
  decide +kernel

/-- 10.8: a BIND of a BOUND station is refused BOUND. -/
theorem test_bind_refusal_of_10_8 :
    leadsTo (.bind 3) (asks bench 3 .bind [40, 0, 20]) (fun t =>
      answerOf t 3 = some (.bound, [])) = true := by
  decide +kernel

/-! ### The statements' hypotheses can be met -/

theorem meets_StepRunsFrontCommand :
    ({ bench with pending := [.tick, .firing] } : State).pending = .tick :: [.firing] := rfl

/-- KEEPALIVE, sequence 1, with a reply to it in the cache. -/
def replaying : State :=
  (queued bench 0 (request .keepalive [])).setPort 0
    { bench.port 0 with
      requests := [request .keepalive []]
      lastRequest := some (1, 3)
      replyCache := some (replyTo (request .keepalive []) .ok [1, 0, 100]) }

theorem meets_ReplayAnswersFromCache :
    requestRow (.keepalive 0) = some (0, rowOf .keepalive) ∧ replaying.inReset = false ∧
      (replaying.port 0).replySlot = none ∧
      (replaying.port 0).requests.head? = some (request .keepalive []) ∧
      rowOf .keepalive (request .keepalive []) = true ∧ replaying.leaseOwed 0 = false ∧
      (replaying.port 0).lastRequest =
        some ((request .keepalive []).sequence, (request .keepalive []).code) ∧
      (replaying.port 0).replyCache = some (replyTo (request .keepalive []) .ok [1, 0, 100]) :=
  ⟨rfl, by decide +kernel⟩

/-- Port 0 has two requests that can be taken at once, the other ports have none; a tick takes both first. -/
theorem meets_ReplayAnswersFromCache_due :
    let s := bench.setPort 0 { bench.port 0 with
      requests := [request .keepalive [], request .timeRead []] }
    takesFirst .tick ∧ (.tick : Instr) ≠ .leaseBoundary ∧ s.queueLaw ∧ s.inReset = false ∧ ¬(s.port 0).settled ∧
      (∀ n, n ≠ 0 → (s.port n).settled) ∧ s.pending = [] ∧
      leadsTo .tick s (fun t => (t.port 0).requests = [] ∧ t.tb.t = 1001 ∧
        answerOf t 0 = some (.ok, [2, 0, 0, 3, 232, 0, 24, 255, 0, 0])) = true :=
  ⟨⟨rfl, nofun, nofun, nofun, nofun⟩, nofun, by decide +kernel⟩

/-- 9.13: the TRIP ends, reply 10 is begun and request 11 is taken at once, before the next frame completes. -/
theorem test_taken_at_first_instant_of_9_13 :
    let s := bench.setPort 1 { bench.port 1 with
      requests := [request .keepalive []], transmitter := .sending [1] 0
      replySlot := some (replyTo (request .timeStop []) .inUse []) }
    leadsTo (.transmitEnd 1) s (fun t => (t.port 1).requests.length = 1 ∧ (t.port 1).replySlot = none ∧
      leadsTo (.characterReceived 1 0 true true) t (fun u => (u.port 1).requests = [] ∧
        (u.port 1).replySlot = some (replyTo (request .keepalive []) .ok [1, 0, 100]) ∧
        (u.port 1).receiver = .header)) = true := by
  decide +kernel

theorem meets_CommonChecksRefuse_unknown :
    let f : RequestFrame := ⟨1, 1, 0x25, []⟩
    requestRow (.unknownRequest 3) = some (3, fun f => f.request == none) ∧
      (queued bench 3 f).ready 3 f ∧ f.request = none :=
  ⟨rfl, by decide +kernel⟩

theorem meets_CommonChecksRefuse_length :
    let f := request .post (List.replicate 19 0)
    requestRow (.post 3) = some (3, rowOf .post) ∧ (queued bench 3 f).ready 3 f ∧
      rowOf .post f = true ∧ f.request = some .post ∧
      f.payload.length ≠ RequestCode.post.payloadLength :=
  ⟨rfl, by decide +kernel⟩

theorem meets_CommonChecksRefuse_session :
    let f := request .timeRead []
    requestRow (.timeRead 0) = some (0, rowOf .timeRead) ∧
      f.payload.length = RequestCode.timeRead.payloadLength ∧
      (queued (inSession bench 0 .unbound) 0 f).ready 0 f ∧
      ((queued (inSession bench 0 .unbound) 0 f).station 0).session = .unbound ∧
      ((queued (inSession bench 0 .lapsed) 0 f).station 0).session = .lapsed ∧
      (let s := queued (bench.setStation 0 { boundStation with number := some 255, counter := 255 }) 0 f;
        s.ready 0 f ∧ (s.station 0).session = .bound ∧ (s.station 0).number ≠ some f.session) :=
  ⟨rfl, by decide +kernel⟩

theorem meets_CommonChecksRefuse_bound :
    let f : RequestFrame := ⟨1, 0, 1, [40, 0, 20]⟩
    (queued bench 3 f).ready 3 f ∧ rowOf .bind f = true ∧ f.request = some .bind ∧
      f.payload.length = RequestCode.bind.payloadLength ∧ (bench.station 3).session = .bound := by
  decide +kernel

/-- Quota 128 asked for, lease 1, at the session counter's last value and at its first. -/
theorem meets_BindOpensSession :
    let f : RequestFrame := ⟨0, 0, 1, [128, 0, 1]⟩
    ∀ c ∈ [0, 254, 255], let s := queued (bench.setStation 2 { StationRec.powerOn with counter := c }) 2 f
      s.ready 2 f ∧ f.request = some .bind ∧ f.payload.length = 3 ∧
        (s.station 2).session ≠ .bound ∧ f.session = 0 ∧ (f.at 0).toNat ≤ 128 ∧ f.half 1 ≠ 0 := by
  decide +kernel

/-- A session field of 1, a quota of 129, a lease period of 0. -/
theorem meets_BindOpensSession_refused :
    ∀ f ∈ ([⟨0, 1, 1, [8, 0, 1]⟩, ⟨0, 0, 1, [129, 0, 1]⟩, ⟨0, 0, 1, [8, 0, 0]⟩] : List RequestFrame),
      let s := queued (inSession bench 2 .lapsed) 2 f
      s.ready 2 f ∧ f.request = some .bind ∧ f.payload.length = 3 ∧ (s.station 2).session ≠ .bound ∧
        (f.session ≠ 0 ∨ 128 < (f.at 0).toNat ∨ f.half 1 = 0) := by
  decide +kernel

theorem meets_KeepaliveRestartsLease :
    Meets bench 0 .keepalive [] (fun s _ => (s.station 0).leasePeriod = some 100) := by
  decide +kernel

theorem meets_PortStatusReports :
    let asked := fun (s : State) (b : Byte) => queued s 1 (request .portStatus [b])
    (∀ s ∈ [bench, inSession bench 1 .unbound, inSession bench 1 .lapsed], ∀ b ∈ [0, 1, 2, 255],
        (asked s b).ready 1 (request .portStatus [b]) ∧
          (request .portStatus [b]).request = some .portStatus) ∧
      (request .portStatus [0]).at 0 = 0 ∧ (request .portStatus [1]).at 0 = 1 ∧
      (request .portStatus [2]).at 0 ≠ 0 ∧ (request .portStatus [2]).at 0 ≠ 1 := by
  decide +kernel

theorem meets_UnbindTearsDown : Meets releasing 0 .unbind [] (fun s _ => s.ownIds 0) := by decide +kernel

/-- Station 0 holds L4 and L5 (pair 2 bound, PRIMARY_ON) with loss action SAFE, L5 safe ASSERTED, and L8, ASSERTED,
with HOLD; station 1 holds L0 and waits for L8. -/
def losing : State :=
  let s := awaiting (holding (holding (holding bench 7 0 0x0030) 8 0 0x0100) 9 1 0x0001) 10 1 0x0100 50
  (((({ s with held := [⟨7, 0, 0x0030, .safe⟩, ⟨8, 0, 0x0100, .hold⟩, ⟨9, 1, 0x0001, .hold⟩] } : State).setLine 4
    ⟨true, .normal, false, true, some 7, true⟩).setLine 5 ⟨false, .normal, true, true, some 7, true⟩).setLine 8
    ⟨true, .normal, false, true, some 8, true⟩).setPair 2 ⟨.primaryOn, 5⟩

/-- R51 after R81: SAFE sets the pair to its safe state, HOLD leaves L8 ASSERTED, and the scan grants L8. -/
theorem test_losses_of_unbind :
    leadsTo (.unbind 0) (asks losing 0 .unbind []) (fun t =>
      (t.line 4).asserted = false ∧ (t.line 5).asserted = true ∧ (t.pair 2).state = .partnerOn ∧
        (t.line 4).holder = none ∧ (t.line 8).asserted = true ∧ (t.line 8).holder = some 10 ∧
        t.held.map (fun c => c.id) = [9, 10] ∧ t.waiting = []) = true := by
  decide +kernel

/-- A station whose lease timer stands at 0. -/
def expiring : State := releasing.setStation 0 { boundStation with leaseTimer := some 0 }

theorem meets_LeaseExpiryTearsDown :
    expiring.inReset = false ∧ expiring.ownIds 0 ∧ (expiring.station 0).session = .bound ∧
      (expiring.station 0).leaseTimer = some 0 := by decide +kernel

theorem meets_LeaseExpiryTearsDown_request :
    let s := asks expiring 0 .keepalive []
    requestRow (.keepalive 0) = some (0, rowOf .keepalive) ∧ s.inReset = false ∧
      (s.port 0).replySlot = none ∧ (s.port 0).requests.head? = some (request .keepalive []) ∧
      rowOf .keepalive (request .keepalive []) = true ∧ (s.station 0).session = .bound ∧
      (s.station 0).leaseTimer = some 0 :=
  ⟨rfl, by decide +kernel⟩

theorem meets_BreakEndsSession :
    let broken := releasing.setPort 0 { releasing.port 0 with receiver := .inBreak }
    releasing.inReset = false ∧ releasing.ownIds 0 ∧ (releasing.port 0).receiver ≠ .inBreak ∧
      (releasing.station 0).session = .bound ∧
      ((inSession releasing 0 .lapsed).station 0).session = .lapsed ∧
      ((inSession releasing 0 .lapsed).port 0).receiver ≠ .inBreak ∧
      ((inSession releasing 0 .unbound).station 0).session = .unbound ∧
      ((inSession releasing 0 .unbound).port 0).receiver ≠ .inBreak ∧
      broken.atWork ∧ (broken.port 0).receiver = .inBreak := by
  decide +kernel

theorem meets_TimeReadReports : Meets armedBench 1 .timeRead [] (fun _ _ => True) := by decide +kernel

/-- Exponents in range, as the statement of TIME_START has it. -/
abbrev exponentsInRange (f : RequestFrame) : Prop :=
  (f.at 1).toNat ≤ 10 ∧ 16 ≤ (f.at 2).toNat ∧ (f.at 2).toNat ≤ 30 ∧ (f.at 3 = 0 ∨ f.at 3 = 1)

theorem meets_TimeStartStartsOrRefuses_accepted :
    Meets (timed bench .halted) 0 .timeStart [0, 10, 30, 1, 0, 0, 0, 9, 0, 0]
        (fun s f => s.tb.state = .halted ∧ exponentsInRange f ∧ f.at 0 = 0) ∧
      Meets (timed bench .halted) 0 .timeStart [1, 0, 16, 0, 0, 0, 0, 0, 0, 50]
        (fun s f => s.tb.state = .halted ∧ exponentsInRange f ∧ f.at 0 = 1) := by
  decide +kernel

theorem meets_TimeStartStartsOrRefuses_running :
    ∀ s ∈ [bench, armedBench], ∀ mode ∈ ([0, 1, 2] : List Byte),
      Meets s 2 .timeStart [mode, 0, 16, 0, 0, 0, 0, 0, 0, 0]
        (fun s _ => s.tb.state ≠ .halted) := by
  decide +kernel

theorem meets_TimeStartStartsOrRefuses_range :
    ∀ b ∈ ([[0, 11, 16, 0], [1, 0, 15, 0], [0, 0, 31, 0], [1, 0, 16, 2], [2, 0, 16, 0]] : List (List Byte)),
      Meets (timed bench .halted) 2 .timeStart (b ++ [0, 0, 0, 0, 0, 0]) (fun s f =>
        s.tb.state = .halted ∧ (¬exponentsInRange f ∨ (f.at 0 ≠ 0 ∧ f.at 0 ≠ 1))) := by
  decide +kernel

theorem meets_TimeStopHaltsOrRefuses_refused :
    Meets releasing 0 .timeStop [] (fun s _ => ∃ i, s.order i ≠ none) ∧
      Meets (bench.setPair 7 ⟨.gapToPartner 1005, 5⟩) 0 .timeStop []
        (fun s _ => ∃ k, (s.pair k).state.inGap = true) := by
  decide +kernel

theorem meets_TimeStopHaltsOrRefuses_stopped :
    ∀ x ∈ [TimebaseState.running, .armed, .halted],
      Meets (timed bench x) 0 .timeStop [] (fun s _ => (∀ i, s.order i = none) ∧
        (∀ k, (s.pair k).state.inGap = false) ∧ s.tb.state = x) := by
  decide +kernel

/-- An order, a gap and a filter, none of them due at 1000. -/
def undue : State :=
  ((scheduled (holding bench 3 0 0x0030) (orderOf (.pulse 5 10) (.scheduled 1001 .leading))).setPair 0
    ⟨.gapToPrimary 1001, 4⟩).setInput 5 ⟨some ⟨.both, 20⟩, 2, .filtering .low ⟨.rising, 999, .high⟩⟩

theorem meets_TickAdvancesTime :
    undue.atWork ∧ undue.unowed ∧ undue.running = true ∧
      (∀ i ∈ undue.schedule, ∀ o, undue.order i = some o → ∀ ph, o.state ≠ .scheduled undue.tb.t ph) ∧
      (∀ k, (undue.pair k).state ≠ .gapToPrimary undue.tb.t ∧
        (undue.pair k).state ≠ .gapToPartner undue.tb.t) ∧
      (∀ c level edge x, (undue.input c).state = .filtering level edge →
        (undue.input c).settings = some x → edge.edgeTime + x.filter.setWidth 32 ≠ undue.tb.t) ∧
      (timed bench .armed).running = false := by
  refine ⟨by decide +kernel, by decide +kernel, by decide +kernel, ?_, by decide +kernel, ?_, by decide +kernel⟩
  · have h : ∀ i ∈ undue.schedule, ∀ o ∈ undue.order i, o.state = .scheduled 1001 .leading := by
      decide +kernel
    intro i hi o ho ph
    rw [h i hi o ho]
    exact fun e => absurd (OrderState.scheduled.inj e).1 (by decide +kernel)
  · have h : ∀ c, (undue.input c).state = .idle ∨ undue.input c =
        ⟨some ⟨.both, 20⟩, 2, .filtering .low ⟨.rising, 999, .high⟩⟩ := by decide +kernel
    intro c level edge x hs hx
    rcases h c with h | h
    · rw [h] at hs; cases hs
    · rw [h] at hs hx; cases hs; cases hx; decide +kernel

/-- At 1000 an order is due, a gap ends and a filter closes. -/
def allDue : State :=
  ((scheduled (holding bench 3 0 0x0030) (orderOf (.pulse 5 10) (.scheduled 1000 .leading))).setPair 0
    ⟨.gapToPrimary 1000, 4⟩).setInput 5 ⟨some ⟨.both, 20⟩, 2, .filtering .low ⟨.rising, 980, .high⟩⟩

/-- The level that the edge in filter of input `c` has. -/
def filterLevel (s : State) (c : InputNo) : Level :=
  match (s.input c).state with
  | .filtering _ edge => edge.newLevel
  | _ => .low

theorem meets_TickAdvancesTime_work :
    (allDue.atWork ∧ allDue.unowed ∧ allDue.running = true) ∧
      (∀ c before edge, (allDue.input c).state = .filtering before edge → filterLevel allDue c = edge.newLevel) ∧
      leadsTo .tick allDue (fun t => t.tb.t = 1001 ∧ (t.line 5).asserted = true ∧ (t.line 0).asserted = true ∧
        t.journal.length = 1 ∧ t.order 0 =
          some { orderOf (.pulse 5 10) (.scheduled 1010 .trailing) with started := true }) = true :=
  ⟨by decide +kernel, fun c before edge h => by simp [filterLevel, h], by decide +kernel⟩

theorem meets_ArmedTimebaseStartsOrTimesOut :
    armedBench.atWork ∧ armedBench.tb.state = .armed ∧ bench.atWork ∧ bench.tb.state ≠ .armed ∧
      (let s := { armedBench with tb := ⟨.armed, 0, 3, 22, some 0, some 0⟩ };
        s.atWork ∧ s.tb.state = .armed ∧ s.tb.armTimer = some 0) := by decide +kernel

theorem meets_LeaseBoundaryCountsDown :
    armedBench.atWork ∧ armedBench.unowed ∧ armedBench.tb.armTimer = some 40 ∧ expiring.atWork ∧
      (expiring.station 0).leaseTimer = some 0 ∧ ¬expiring.unowed ∧
      (let s := queued armedBench 1 (request .keepalive []); s.inReset = false ∧ s.unowed ∧ s.queueLaw ∧
        ¬(s.port 1).settled) := by decide +kernel

/-- Station 0 with 1 lease unit left. -/
def lastUnit : State := releasing.setStation 0 { boundStation with leaseTimer := some 1 }

/-- R142: the boundary brings the timer to 0; the next boundary, or a tick, finds the expiry made. -/
theorem test_no_lease_is_outlived :
    leadsTo .leaseBoundary lastUnit (fun t => (t.station 0).session = .bound ∧ (t.station 0).leaseTimer = some 0 ∧
      leadsTo .leaseBoundary t (fun u => (u.station 0).session = .lapsed ∧
        u.held.all (fun c => c.station != 0) = true ∧ (u.station 1).leaseTimer = some 98) ∧
      leadsTo .tick t (fun u => (u.station 0).session = .lapsed ∧ u.tb.t = 1001)) = true := by
  decide +kernel

/-- Station 0 has a lease of 1 lease unit, its last, and a KEEPALIVE or an UNBIND waits at the boundary. -/
def meeting (c : RequestCode) : State :=
  queued (releasing.setStation 0 { boundStation with leasePeriod := some 1, leaseTimer := some 1 }) 0 (request c [])

theorem meets_LeaseExpiryTearsDown_first :
    ∀ c ∈ [RequestCode.keepalive, .unbind], let s := meeting c
      s.ready 0 (request c []) ∧ (s.port 0).requests = [request c []] ∧ (∀ m, m ≠ 0 → (s.port m).settled) ∧
        s.unowed ∧ (s.station 0).session = .bound ∧ (s.station 0).number = some (request c []).session ∧
        (s.station 0).leasePeriod = some 1 := by
  decide +kernel

/-- R143: taken first at the boundary's instant, a KEEPALIVE restarts a lease of 1 unit, which the next boundary ends
(R15), and an UNBIND leaves the station UNBOUND. -/
theorem test_request_taken_first :
    leadsTo .leaseBoundary (meeting .keepalive) (fun t => (t.station 0).leaseTimer = some 1 ∧
        answerOf t 0 = some (.ok, [1, 0, 1]) ∧ leadsTo (.leaseExpiry 0) t (fun u => u = t) ∧
        leadsTo .leaseBoundary t (fun u => leadsTo (.leaseExpiry 0) u (fun v => (v.station 0).session = .lapsed))) ∧
      leadsTo .leaseBoundary (meeting .unbind) (fun t => (t.station 0).session = .unbound) = true := by
  decide +kernel

/-- R143: a KEEPALIVE before the boundary restarts the lease, and one after it is discarded by the expiry. -/
theorem test_request_meets_expiry :
    leadsTo (.keepalive 0) (asks lastUnit 0 .keepalive []) (fun t => leadsTo .leaseBoundary t (fun u =>
        (u.station 0).session = .bound ∧ (u.station 0).leaseTimer = some 99)) = true ∧
      leadsTo .leaseBoundary lastUnit (fun t => leadsTo (.keepalive 0) (asks t 0 .keepalive []) (fun u =>
        (u.station 0).session = .lapsed ∧ (u.port 0).requests = [] ∧ (u.port 0).transmitter = .idle)) = true := by
  decide +kernel

/-- The state with group `g` TRIPPED. -/
def trippedAt (s : State) (g : GroupNo) : State := s.setGroup g ⟨.tripped, .either⟩

theorem meets_CommandSetsLineOrTurnsPair :
    ((trippedAt bench 0).group (groupOf 0)).state = .tripped ∧
      (bench.group (groupOf 0)).state = .normal ∧ (bench.pair (pairOf 0)).state = .unbound ∧
      (15 : LineNo) = partner (pairOf 15) ∧
      (∀ x ∈ [PairState.bothOff, .primaryOn, .partnerOn, .gapToPrimary 1001, .gapToPartner 1001],
        ∀ gap ∈ ([0, 255] : List Byte), ((bench.setPair 7 ⟨x, gap⟩).group (groupOf 14)).state = .normal ∧
          (14 : LineNo) = primary (pairOf 14) ∧
          ((bench.setPair 7 ⟨x, gap⟩).pair (pairOf 14)).state ≠ .unbound ∧
          ((bench.setPair 7 ⟨x, gap⟩).pair (pairOf 14)).state = x) := by
  decide +kernel

theorem meets_GapCompletes :
    (∀ x ∈ [PairState.gapToPrimary 1000, .gapToPartner 1000],
      (bench.setPair 7 ⟨x, 5⟩).atWork ∧ (bench.setPair 7 ⟨x, 5⟩).running = true ∧
        ((bench.setPair 7 ⟨x, 5⟩).pair 7).state = x) ∧ bench.tb.t = 1000 ∧
      (timed bench .halted).running = false ∧
      (let s := bench.setPair 7 ⟨.gapToPrimary 1001, 5⟩
       s.atWork ∧ s.running = true ∧ (s.pair 7).state ≠ .gapToPrimary s.tb.t ∧
        (s.pair 7).state ≠ .gapToPartner s.tb.t) := by
  decide +kernel

/-- Table 2-2, row by row: the pin of a line with this record outside power-on reset. -/
theorem meets_ShapeSetsLines_pins :
    ∀ x ∈ ([(⟨true, .normal, false, false, none, false⟩, .highImpedance),
        (⟨true, .normal, false, true, none, false⟩, .high), (⟨true, .inverted, false, true, none, false⟩, .low),
        (⟨false, .normal, false, true, none, false⟩, .low), (⟨false, .inverted, false, true, none, false⟩, .high)] :
        List (LineRec × PinLevel)),
      (bench.setLine 9 x.1).inReset = false ∧ (bench.setLine 9 x.1).linePin 9 = x.2 := by
  decide +kernel

/-- Station 0 holds G1 under claim 7, with pair 2 bound, and station 1 holds L0; an order of station 0 on L7. -/
def shaping : State :=
  scheduled ((holding (holding bench 7 0 0x00F0) 8 1 0x0001).setPair 2 ⟨.bothOff, 5⟩)
    (orderOf (.step 7 .assert) (.scheduled 1001 .absent))

/-- The setting bytes of a SHAPE and its mask are in range. -/
abbrev shapeInRange (f : RequestFrame) : Prop :=
  f.half 0 ≠ 0 ∧ ∀ b ∈ [f.at 2, f.at 3, f.at 4], b = 0 ∨ b = 1 ∨ b = 0xFF

/-- Every line of the mask is held by the station. -/
abbrev holdsMask (s : State) (p : StationNo) (m : LineMask) : Prop :=
  ∀ l, named m l = true → s.holds p l = true

/-- The station has an order on a line of the mask. -/
abbrev targetsMask (s : State) (p : StationNo) (m : LineMask) : Prop :=
  ∃ i, ∃ o ∈ s.order i, o.station = p ∧ o.body.targets &&& m ≠ 0

/-- A SHAPE that moves one line of the bound pair of a TRIPPED group, with an order on another line. -/
theorem meets_ShapeSetsLines_accepted :
    Meets (trippedAt shaping 1) 0 .shape [0, 0x10, 1, 1, 0xFF] (fun s f =>
      shapeInRange f ∧ holdsMask s 0 (f.half 0) ∧ (s.group 1).state = .tripped ∧ s.pairBound 2 = true ∧
      (∀ i, ∀ o ∈ s.order i, o.station = 0 → o.body.targets &&& f.half 0 = 0) ∧
      f.at 3 = 1 ∧ (s.line (partner 2)).safe = false ∧ named (f.half 0) (partner 2) = false ∧
      ∀ k, s.pairBound k = true → k = 2) := by
  decide +kernel

theorem meets_ShapeSetsLines_refused :
    (∀ b ∈ ([[0, 0, 0, 0, 0], [0, 0x10, 2, 0, 0], [0, 0x10, 0, 254, 0], [0, 0x10, 0, 0, 2]] :
        List (List Byte)), Meets shaping 0 .shape b (fun _ f => ¬shapeInRange f)) ∧
      Meets shaping 0 .shape [0, 0x11, 1, 0xFF, 0]
        (fun s f => shapeInRange f ∧ ¬holdsMask s 0 (f.half 0)) ∧
      Meets shaping 0 .shape [0, 0x90, 1, 0xFF, 0]
        (fun s f => shapeInRange f ∧ holdsMask s 0 (f.half 0) ∧ targetsMask s 0 (f.half 0)) ∧
      Meets shaping 0 .shape [0, 0x30, 0xFF, 1, 0xFF] (fun s f => shapeInRange f ∧
        holdsMask s 0 (f.half 0) ∧ ¬targetsMask s 0 (f.half 0) ∧ s.pairBound 2 = true ∧
        named (f.half 0) (primary 2) = true ∧ named (f.half 0) (partner 2) = true ∧ f.at 3 = 1) := by
  refine ⟨?_, ?_, ?_, ?_⟩ <;> decide +kernel

theorem meets_LineReadDescribesGroup :
    Meets shaping 3 .lineRead [3] (fun _ f => (f.at 0).toNat = (3 : GroupNo).val) ∧
      Meets shaping 3 .lineRead [4] (fun _ f => 4 ≤ (f.at 0).toNat) := by
  decide +kernel

/-- The requester holds both lines of pair `k` under one claim. -/
abbrev holdsPair (s : State) (p : StationNo) (k : PairNo) : Prop :=
  (s.line (primary k)).holder = (s.line (partner k)).holder ∧ s.holds p (primary k) = true

/-- A waiting claim names one line of the pair alone. -/
abbrev halfWaited (s : State) (k : PairNo) : Prop :=
  ∃ w ∈ s.waiting, named w.claim.lines (primary k) ≠ named w.claim.lines (partner k)

/-- The two lines of pair `k`. -/
abbrev bothLines (k : PairNo) : LineMask := lineMask (primary k) ||| lineMask (partner k)

theorem meets_PairBindsAndUnbinds_accepted :
    (∀ b ∈ ([[2, 1, 255], [2, 0, 0]] : List (List Byte)), Meets shaping 0 .pair b (fun s f =>
        (f.at 0).toNat = (2 : PairNo).val ∧ holdsPair s 0 2 ∧
        (∀ i, ∀ o ∈ s.order i, o.station = 0 → o.body.targets &&& bothLines 2 = 0) ∧
        ¬halfWaited s 2 ∧ s.pairBound 2 = true)) ∧
      Meets (holding bench 7 0 0xC000) 0 .pair [7, 1, 0] (fun s f =>
        (f.at 0).toNat = (7 : PairNo).val ∧ holdsPair s 0 7 ∧ (∀ i, s.order i = none) ∧ f.at 1 = 1 ∧
        ¬halfWaited s 7 ∧ (s.line (primary 7)).safe = false ∧ s.pairBound 7 = false) := by
  refine ⟨?_, ?_⟩ <;> decide +kernel

theorem meets_PairBindsAndUnbinds_refused :
    (∀ b ∈ ([[8, 1, 0], [0, 2, 0]] : List (List Byte)), Meets shaping 0 .pair b
        (fun _ f => f.at 1 ≠ 0 ∧ (8 ≤ (f.at 0).toNat ∨ (f.at 1 ≠ 0 ∧ f.at 1 ≠ 1)))) ∧
      Meets shaping 0 .pair [0, 0, 0] (fun s _ => ¬holdsPair s 0 0) ∧
      Meets (awaiting shaping 9 2 0x0010 5) 0 .pair [2, 1, 5]
        (fun s f => holdsPair s 0 2 ∧ f.at 1 = 1 ∧ halfWaited s 2) ∧
      Meets shaping 0 .pair [3, 1, 5] (fun s _ =>
        holdsPair s 0 3 ∧ ¬halfWaited s 3 ∧ targetsMask s 0 (bothLines 3)) ∧
      Meets ((shaping.setLine 4 ⟨false, .normal, true, true, some 7, true⟩).setLine 5
          ⟨false, .normal, true, true, some 7, true⟩) 0 .pair [2, 1, 5] (fun s f =>
        holdsPair s 0 2 ∧ f.at 1 = 1 ∧ ¬halfWaited s 2 ∧ ¬targetsMask s 0 (bothLines 2) ∧
          (s.line (primary 2)).safe = true ∧ (s.line (partner 2)).safe = true) := by
  refine ⟨?_, ?_, ?_, ?_, ?_⟩ <;> decide +kernel

/-- The mask names a bound pair whole or not at all. -/
abbrev wholePairs (s : State) (m : LineMask) : Prop :=
  ∀ k, s.pairBound k = true → named m (primary k) = named m (partner k)

/-- A line of the mask is held, or a waiting claim names one. -/
abbrev barredMask (s : State) (m : LineMask) : Prop :=
  (∃ l, named m l = true ∧ s.free l = false) ∨ ∃ w ∈ s.waiting, w.claim.lines &&& m ≠ 0

/-- The mask and the loss byte of a CLAIM are in range. -/
abbrev claimInRange (f : RequestFrame) : Prop := f.half 0 ≠ 0 ∧ (f.at 2 = 0 ∨ f.at 2 = 1)

/-- The requester holds a line of the mask. -/
abbrev overlapsMask (s : State) (p : StationNo) (m : LineMask) : Prop :=
  ∃ l, named m l = true ∧ s.holds p l = true

theorem meets_ClaimGrantedQueuedOrRefused_granted :
    ∀ b ∈ ([[0, 2, 0, 0, 0], [0xFF, 0, 1, 255, 255]] : List (List Byte)), Meets shaping 2 .claim b
      (fun s f => claimInRange f ∧ wholePairs s (f.half 0) ∧ ¬barredMask s (f.half 0)) := by
  decide +kernel

theorem meets_ClaimGrantedQueuedOrRefused_refused :
    (∀ b ∈ ([[0, 0, 0, 0, 0], [0, 2, 2, 0, 0]] : List (List Byte)), Meets shaping 2 .claim b
        (fun _ f => ¬claimInRange f)) ∧
      Meets shaping 2 .claim [0, 0x10, 0, 0, 0]
        (fun s f => claimInRange f ∧ ¬wholePairs s (f.half 0)) ∧
      Meets shaping 0 .claim [0, 0x80, 0, 0, 0]
        (fun s f => claimInRange f ∧ wholePairs s (f.half 0) ∧ overlapsMask s 0 (f.half 0)) ∧
      Meets shaping 2 .claim [0, 1, 0, 0, 0] (fun s f => claimInRange f ∧ wholePairs s (f.half 0) ∧
        ¬overlapsMask s 2 (f.half 0) ∧ barredMask s (f.half 0) ∧ f.half 3 = 0) := by
  refine ⟨?_, ?_, ?_, ?_⟩ <;> decide +kernel

/-- Seven claims wait, two of station 2, one of station 0. -/
def sevenWait : State :=
  { shaping with
    waiting := ([2, 2, 0, 3, 3, 1, 1] : List StationNo).zipIdx.map (fun x =>
      ⟨⟨BitVec.ofNat 8 (20 + x.2), x.1, 1, .hold⟩, 9⟩) }

theorem meets_ClaimGrantedQueuedOrRefused_waiting :
    Meets sevenWait 2 .claim [0, 1, 0, 0, 1] (fun s f => claimInRange f ∧ wholePairs s (f.half 0) ∧
        ¬overlapsMask s 2 (f.half 0) ∧ barredMask s (f.half 0) ∧ f.half 3 ≠ 0 ∧
        (s.waiting.filter (fun w => w.claim.station == 2)).length = 2) ∧
      Meets (awaiting sevenWait 40 0 1 5) 0 .claim [0, 1, 0, 255, 255] (fun s f => claimInRange f ∧
        wholePairs s (f.half 0) ∧ ¬overlapsMask s 0 (f.half 0) ∧ barredMask s (f.half 0) ∧
        f.half 3 ≠ 0 ∧ s.waiting.length = 8) ∧
      Meets sevenWait 0 .claim [0, 1, 0, 0, 1] (fun s f => claimInRange f ∧
        wholePairs s (f.half 0) ∧ ¬overlapsMask s 0 (f.half 0) ∧ barredMask s (f.half 0) ∧
        f.half 3 ≠ 0 ∧ ¬(8 ≤ s.waiting.length ∨
          2 ≤ (s.waiting.filter (fun w => w.claim.station == 0)).length)) := by
  refine ⟨?_, ?_, ?_⟩ <;> decide +kernel

/-- The counter at 255 with ids 1 and 2 in use: stepping forward passes over 0, 1 and 2. -/
theorem meets_ClaimIdIsFirstFree :
    let s := { awaiting (holding bench 1 0 3) 2 1 1 5 with claimCounter := 255 }
    s.claims.length < 255 ∧ s.nextClaimId = 3 := by decide +kernel

/-- L0 is free and L1 held; station 2 waits for both, station 3 for L0, and station 1 for L4. -/
def overtaking : State := awaiting (awaiting (awaiting (holding bench 7 0 2) 8 2 3 5) 9 3 1 5) 10 1 0x0010 5

theorem meets_GrantScanGrantsAllItCan : (overtaking.waiting.map (fun w => w.claim.id)).Nodup := by
  decide +kernel

/-- The note of R43: no claim overtakes an older one that names one of its lines; the third claim is granted. -/
theorem test_no_overtaking :
    overtaking.grantScan.waiting.map (fun w => w.claim.id) = [8, 9] ∧
      overtaking.grantScan.held.map (fun c => c.id) = [7, 10] := by decide +kernel

theorem meets_ReleaseGivesUpHeldClaim :
    ∀ b ∈ ([[7, 0], [7, 1]] : List (List Byte)),
      let c : Claim := ⟨7, 0, 0x00F0, .hold⟩
      Meets (awaiting shaping 9 2 0x0010 5) 0 .release b (fun s f =>
        (f.at 1 = 0 ∨ f.at 1 = 1) ∧ c ∈ s.held ∧ c.id = f.at 0 ∧ c.station = 0 ∧
          ∀ x ∈ s.held, x.id = c.id → x = c) := by
  decide +kernel

theorem meets_WaitingClaimsLeave :
    Meets shaping 0 .release [7, 2] (fun _ f => f.at 1 ≠ 0 ∧ f.at 1 ≠ 1) ∧
      (∀ b ∈ ([[8, 0], [9, 1], [255, 0]] : List (List Byte)),
        Meets (awaiting shaping 9 2 0x0010 5) 0 .release b (fun s f =>
          (f.at 1 = 0 ∨ f.at 1 = 1) ∧ ¬(∃ c ∈ s.held, c.id = f.at 0 ∧ c.station = 0) ∧
            ¬(∃ w ∈ s.waiting, w.claim.id = f.at 0 ∧ w.claim.station = 0))) ∧
      Meets (awaiting shaping 9 2 0x0010 5) 2 .release [9, 1] (fun s f =>
        (f.at 1 = 0 ∨ f.at 1 = 1) ∧ ¬(∃ c ∈ s.held, c.id = f.at 0 ∧ c.station = 2) ∧
          ∃ w ∈ s.waiting, w.claim.id = f.at 0 ∧ w.claim.station = 2) ∧
      ((awaiting shaping 9 2 0x0010 0).atWork ∧ ∃ w ∈ (awaiting shaping 9 2 0x0010 0).waiting, w.deadline = 0) ∧
      ∀ w ∈ (awaiting shaping 9 2 0x0010 1).waiting, w.deadline ≠ 0 := by
  refine ⟨?_, ?_, ?_, ?_, ?_⟩ <;> decide +kernel

/-- The bytes of a POST that the form check reads are in range, as the statement has it. -/
abbrev formInRange (f : RequestFrame) : Prop :=
  (f.at 0).toNat ≤ 3 ∧ (f.at 0 = 0 → (f.at 2).toNat ≤ 2) ∧ (f.at 3).toNat ≤ 2 ∧
    (f.at 17).toNat / 16 ≤ 1 ∧ (f.at 17).toNat % 16 ≤ 3

/-- The values of a POST are in range, as the statement has it. -/
abbrev valuesInRange (s : State) (f : RequestFrame) : Prop :=
  (f.at 1).toNat < (if f.at 0 = 3 then 4 else 16) ∧
    (f.at 0 = 1 → 1 ≤ (f.span 9).toNat ∧ (f.span 9).toNat ≤ 2 ^ s.tb.h) ∧
    (f.at 0 = 2 → 2 ≤ (f.span 12).toNat ∧ (f.span 12).toNat ≤ 2 ^ s.tb.h ∧
      (f.span 9).toNat ≤ (f.span 12).toNat) ∧
    (f.at 0 = 3 → (f.at 2).toNat % 16 ≠ 0) ∧
    (f.at 3 = 2 → (f.at 4).toNat < 8 ∧ 1 ≤ (f.time 5).toNat ∧ (f.time 5).toNat ≤ 65535)

/-- Kinds, each with values at the ends of their ranges for h 16. -/
theorem meets_PostChecksInOrder_bodies :
    let f := request .post (posting 0 15 2 0 0 1001 0 0 0 0x10 5)
    let g := request .post (posting 1 0 9 1 0 1 0x010000 0 0 0x03 5)
    let k := request .post (posting 2 1 9 2 7 65535 2 2 65535 0x12 5)
    let m := request .post (posting 3 3 0xF8 1 0 0 0 0 0 0x01 5)
    (f.postForm = some ⟨.step, .invert, .absolute, .fire, .none⟩ ∧
        f.postBody ⟨.step, .invert, .absolute, .fire, .none⟩ 65536 = some (.step 15 .invert)) ∧
      (g.postForm = some ⟨.pulse, .assert, .relative, .refuse, .both⟩ ∧
        g.postBody ⟨.pulse, .assert, .relative, .refuse, .both⟩ 65536 = some (.pulse 0 65536)) ∧
      (k.postForm = some ⟨.train, .assert, .onCapture, .fire, .atEnd⟩ ∧
        k.postBody ⟨.train, .assert, .onCapture, .fire, .atEnd⟩ 65536 =
          some (.train 1 ⟨2, 2, some 65535, none, false⟩)) ∧
      (m.postForm = some ⟨.pattern, .assert, .relative, .refuse, .first⟩ ∧
        m.postBody ⟨.pattern, .assert, .relative, .refuse, .first⟩ 65536 =
          some (.pattern 3 8 15)) := by
  decide +kernel

theorem meets_PostChecksInOrder_form :
    Meets (timed bench .halted) 0 .post (posting 0 0 0 0 0 0 0 0 0 0 0)
        (fun s _ => s.running = false) ∧
      ∀ b ∈ ([posting 4 0 0 0 0 0 0 0 0 0 0, posting 0 0 3 0 0 0 0 0 0 0 0,
          posting 0 0 0 3 0 0 0 0 0 0 0, posting 0 0 0 0 0 0 0 0 0 0x20 0,
          posting 0 0 0 0 0 0 0 0 0 0x04 0] : List (List Byte)),
        Meets bench 0 .post b (fun s f => s.running = true ∧ ¬formInRange f) := by
  refine ⟨?_, ?_⟩ <;> decide +kernel

theorem meets_PostChecksInOrder_values :
    ∀ b ∈ ([posting 0 16 0 0 0 0 0 0 0 0 0, posting 3 4 1 0 0 0 0 0 0 0 0,
        posting 3 0 0xF0 0 0 0 0 0 0 0 0, posting 1 0 0 0 0 0 0 0 0 0 0,
        posting 2 0 0 0 0 0 0 1 0 0 0, posting 2 0 0 0 0 0 3 2 0 0 0,
        posting 0 0 0 2 8 1 0 0 0 0 0, posting 0 0 0 2 0 0 0 0 0 0 0,
        posting 0 0 0 2 0 65536 0 0 0 0 0] : List (List Byte)),
      Meets bench 0 .post b (fun s f => s.running = true ∧ formInRange f ∧ ¬valuesInRange s f) := by
  decide +kernel

/-- A STEP ASSERT of line `l`, as a POST in form and in range. -/
abbrev stepPost (s : State) (f : RequestFrame) (mode : TriggerMode) (late : LatePolicy)
    (l : LineNo) : Prop :=
  s.running = true ∧ f.postForm = some ⟨.step, .assert, mode, late, .none⟩ ∧
    f.postBody ⟨.step, .assert, mode, late, .none⟩ s.horizon = some (.step l .assert) ∧
    valuesInRange s f

/-- A STEP ASSERT of line `target`, absolute. -/
abbrev stepAt (target : Byte) (due : Time) (policies : Byte) : List Byte :=
  posting 0 target 0 0 0 due 0 0 0 policies 0

theorem meets_PostChecksInOrder_target :
    Meets shaping 0 .post (stepAt 0 1001 0) (fun s f => stepPost s f .absolute .refuse 0 ∧
        ¬(∀ l, named (OrderBody.step 0 .assert).targets l = true → s.holds 0 l = true)) ∧
      Meets shaping 0 .post (stepAt 5 1001 0) (fun s f => stepPost s f .absolute .refuse 5 ∧
        (∀ l, named (OrderBody.step 5 .assert).targets l = true → s.holds 0 l = true) ∧
        s.pairBound 2 = true ∧ named (OrderBody.step 5 .assert).targets (partner 2) = true) ∧
      Meets (trippedAt shaping 1) 0 .post (stepAt 6 1001 0) (fun s f =>
        stepPost s f .absolute .refuse 6 ∧
        (∀ l, named (OrderBody.step 6 .assert).targets l = true → s.holds 0 l = true) ∧
        (∀ k, s.pairBound k = true → named (OrderBody.step 6 .assert).targets (partner k) = false) ∧
        (s.group (OrderBody.step 6 .assert).group).state = .tripped) := by
  refine ⟨?_, ?_, ?_⟩ <;> decide +kernel

theorem meets_PostChecksInOrder_quota :
    Meets (shaping.setStation 0 { boundStation with quota := 1 }) 0 .post (stepAt 6 1001 0)
        (fun s f => stepPost s f .absolute .refuse 6 ∧ s.mayTarget 0 (.step 6 .assert) ∧
          ¬(s.orderCount 0 < (s.station 0).quota.toNat)) ∧
      Meets shaping 0 .post (posting 0 6 0 2 7 1 0 0 0 0 0) (fun s f =>
        stepPost s f .onCapture .refuse 6 ∧ s.mayTarget 0 (.step 6 .assert) ∧
          s.orderCount 0 < (s.station 0).quota.toNat ∧
          ∀ c : InputNo, (f.at 4).toNat = c.val → inSet (s.input c).subscribers 0 = false) := by
  refine ⟨?_, ?_⟩ <;> decide +kernel

/-- What the time check of a POST of `STEP` on L6 finds met before it. -/
abbrev reachesTime (s : State) (f : RequestFrame) (mode : TriggerMode) : Prop :=
  stepPost s f mode .refuse 6 ∧ s.mayTarget 0 (.step 6 .assert) ∧
    s.orderCount 0 < (s.station 0).quota.toNat

/-- Due times one tick past the horizon and 2^31 ticks away, now, and one tick more than 2^31 away. -/
theorem meets_PostChecksInOrder_time :
    (Meets shaping 0 .post (stepAt 6 0x010003E9 0) (fun s f => reachesTime s f .absolute ∧
        2 ^ s.tb.h < (f.time 5 - s.tb.t).toNat ∧ (f.time 5 - s.tb.t).toNat ≤ 2 ^ 31)) ∧
      (Meets shaping 0 .post (stepAt 6 0x800003E8 0) (fun s f => reachesTime s f .absolute ∧
        2 ^ s.tb.h < (f.time 5 - s.tb.t).toNat ∧ (f.time 5 - s.tb.t).toNat ≤ 2 ^ 31)) ∧
      (Meets shaping 0 .post (stepAt 6 1000 0) (fun s f => reachesTime s f .absolute ∧
        s.tb.h ≤ 30 ∧ (f.time 5 - s.tb.t).toNat = 0)) ∧
      Meets shaping 0 .post (stepAt 6 0x800003E9 0) (fun s f => reachesTime s f .absolute ∧
        s.tb.h ≤ 30 ∧ 2 ^ 31 < (f.time 5 - s.tb.t).toNat) := by
  and_intros <;> decide +kernel

/-- Absolute due times 1 and H ticks away, and a RELATIVE one of 1; slot 0 is taken, so the free slot is 1. -/
theorem meets_PostSchedulesOrder :
    (Meets shaping 0 .post (stepAt 6 1001 0) (fun s f => reachesTime s f .absolute ∧
        (s.lowestFreeIs 1 ∧ s.unlisted 1) ∧ 1 ≤ (f.time 5 - s.tb.t).toNat ∧
        (f.time 5 - s.tb.t).toNat ≤ 2 ^ s.tb.h)) ∧
      (Meets shaping 0 .post (stepAt 6 0x010003E8 0) (fun s f => reachesTime s f .absolute ∧
        (s.lowestFreeIs 1 ∧ s.unlisted 1) ∧ 1 ≤ (f.time 5 - s.tb.t).toNat ∧
        (f.time 5 - s.tb.t).toNat ≤ 2 ^ s.tb.h)) ∧
      Meets shaping 0 .post (posting 0 6 0 1 0 1 0 0 0 0 0) (fun s f => reachesTime s f .relative ∧
        (s.lowestFreeIs 1 ∧ s.unlisted 1) ∧ 1 ≤ (s.tb.t + f.time 5 - s.tb.t).toNat ∧
        (s.tb.t + f.time 5 - s.tb.t).toNat ≤ 2 ^ s.tb.h) := by
  and_intros <;> decide +kernel

/-- The least and the greatest offset. -/
theorem meets_PostArmsOrder :
    (Meets (shaping.setInput 7 ⟨some ⟨.both, 0⟩, 1, .watching none⟩) 0 .post
        (posting 0 6 0 2 7 1 0 0 0 0 0) (fun s f => reachesTime s f .onCapture ∧
          s.lowestFreeIs 1 ∧ (f.at 4).toNat = (7 : InputNo).val ∧ 1 ≤ (f.time 5).toNat ∧
          inSet (s.input 7).subscribers 0 = true)) ∧
      Meets (shaping.setInput 7 ⟨some ⟨.both, 0⟩, 1, .watching none⟩) 0 .post
        (posting 0 6 0 2 7 65535 0 0 0 0 0) (fun s f => reachesTime s f .onCapture ∧
          s.lowestFreeIs 1 ∧ (f.at 4).toNat = (7 : InputNo).val ∧ (f.time 5).toNat ≤ 65535 ∧
          inSet (s.input 7).subscribers 0 = true) := by
  and_intros <;> decide +kernel

/-- No order is due, from the edge times as a check can read them. -/
theorem noneDue_of {s : State}
    (h : ∀ i, ∀ o ∈ s.order i, match o.state with
      | .scheduled e _ => e ≠ s.tb.t
      | .armed => True) : s.noneDue := by
  intro i _ o ph ho hs
  have := h i o ho
  rw [hs] at this
  exact this rfl

/-- A late POST of each kind, of station 0, where the one order is due at 1001. -/
theorem meets_LatePostAppliesAtOnce :
    ∀ b ∈ ([(posting 0 6 2 0 0 1000 0 0 0 0x10 0, OrderBody.step 6 .invert),
        (posting 1 6 0 0 0 999 1 0 0 0x10 0, .pulse 6 1),
        (posting 2 6 0 0 0 999 0 2 0 0x10 0, .train 6 ⟨0, 2, none, none, false⟩),
        (posting 2 6 0 0 0 999 2 2 1 0x10 0, .train 6 ⟨2, 2, some 1, none, false⟩),
        (posting 3 1 0x04 0 0 999 0 0 0 0x10 0, .pattern 1 4 0)] : List (List Byte × OrderBody)),
      Meets shaping 0 .post b.1 (fun s f =>
        (∃ x ∈ f.postForm, f.postBody x s.horizon = some b.2 ∧ x.mode = .absolute ∧ x.late = .fire) ∧
        s.running = true ∧ s.mayTarget 0 b.2 ∧ s.orderCount 0 < (s.station 0).quota.toNat ∧
        s.lowestFreeIs 1 ∧ s.unlisted 1 ∧ s.tb.h ≤ 30 ∧
        ((f.time 5 - s.tb.t).toNat = 0 ∨ 2 ^ 31 < (f.time 5 - s.tb.t).toNat)) := by
  decide +kernel

theorem meets_LatePostAppliesAtOnce_noneDue :
    (asks shaping 0 .post (posting 1 6 0 0 0 999 1 0 0 0x10 0)).noneDue := by
  apply noneDue_of
  have h : ∀ i, ∀ o ∈ (asks shaping 0 .post (posting 1 6 0 0 0 999 1 0 0 0x10 0)).order i,
      o.state = .scheduled 1001 .absent := by decide +kernel
  intro i o ho
  rw [h i o ho]
  exact show (1001 : Time) ≠ 1000 by decide

/-- The state with the order `o` in slot 127 at generation 255, alone in the schedule list. -/
def lastSlot (s : State) (o : Order) : State :=
  { s.setSlot 127 ⟨255, some o⟩ with schedule := [127], postSeq := 1 }

/-- Holding L0 and L1, an order in slot 127 with this body and state. -/
def placedOrder (b : OrderBody) (x : OrderState) : State := lastSlot (holding bench 7 0 3) (orderOf b x)

/-- The CANCEL or REVISE in the frame names the live order in slot 127. -/
abbrev namesLast (s : State) (f : RequestFrame) (b : OrderBody) (x : OrderState) : Prop :=
  (f.at 0).toNat = (127 : SlotNo).val ∧ s.order 127 = some (orderOf b x) ∧
    (s.slot 127).generation = f.at 1

theorem meets_CancelRemovesOrEnds_asserted :
    ∀ b ∈ ([(OrderBody.pulse 0 5, .scheduled 1001 .trailing),
        (.train 0 trainOf, .scheduled 1001 .trailing),
        (.train 0 ⟨10, 10, none, none, true⟩, .scheduled 1001 .leading)] :
        List (OrderBody × OrderState)), ∀ mode ∈ ([0, 1] : List Byte),
      Meets (placedOrder b.1 b.2) 0 .cancel [127, 255, mode] (fun s f =>
        namesLast s f b.1 b.2 ∧ f.at 2 = mode) := by
  decide +kernel

theorem meets_CancelRemovesOrEnds_other :
    ∀ b ∈ ([(OrderBody.step 0 .assert, .scheduled 1001 .absent), (.pulse 0 5, .armed),
        (.train 0 ⟨0, 10, none, none, true⟩, .scheduled 1001 .leading),
        (.pattern 0 3 0, .scheduled 1001 .absent)] :
        List (OrderBody × OrderState)), ∀ mode ∈ ([0, 1] : List Byte),
      Meets (placedOrder b.1 b.2) 0 .cancel [127, 255, mode] (fun s f =>
        namesLast s f b.1 b.2 ∧ f.at 2 = mode) := by
  decide +kernel

theorem meets_CancelRemovesOrEnds_refused :
    (∀ b ∈ ([[128, 255, 0], [127, 255, 2]] : List (List Byte)),
        Meets (placedOrder (.step 0 .assert) (.scheduled 1001 .absent)) 0 .cancel b
          (fun _ f => f.at 2 ≠ 1 ∧ (128 ≤ (f.at 0).toNat ∨ (f.at 2 ≠ 0 ∧ f.at 2 ≠ 1)))) ∧
      (∀ b ∈ ([[128, 255, 1], [127, 255, 2]] : List (List Byte)),
        Meets (placedOrder (.step 0 .assert) (.scheduled 1001 .absent)) 0 .cancel b
          (fun _ f => f.at 2 ≠ 0 ∧ (128 ≤ (f.at 0).toNat ∨ (f.at 2 ≠ 0 ∧ f.at 2 ≠ 1)))) ∧
      ∀ p ∈ ([0, 1] : List StationNo), ∀ mode ∈ ([0, 1] : List Byte),
        Meets (placedOrder (.step 0 .assert) (.scheduled 1001 .absent)) p
          .cancel [127, if p = 0 then 254 else 255, mode] (fun s f =>
            (f.at 0).toNat = (127 : SlotNo).val ∧ f.at 2 = mode ∧
            ∀ o ∈ s.order 127, ¬((s.slot 127).generation = f.at 1 ∧ o.station = p)) := by
  and_intros <;> decide +kernel

/-- Table 10-5: mode 00h is NOW and 01h is AT_END; each is its own row's, and no event for the other row. -/
theorem test_cancel_modes :
    let s := placedOrder (.pulse 0 5) (.scheduled 1001 .trailing)
    leadsTo (.cancelNow 0) (asks s 0 .cancel [127, 255, 0]) (fun t => t.order 127 = none ∧
        answerOf t 0 = some (.ok, [0, 0, 0, 3, 232])) = true ∧
      leadsTo (.cancelAtEnd 0) (asks s 0 .cancel [127, 255, 1]) (fun t =>
        (t.order 127).map (fun o => o.ending) = some true ∧
          answerOf t 0 = some (.ok, [1, 0, 0, 3, 232])) = true ∧
      leadsTo (.cancelNow 0) (asks s 0 .cancel [127, 255, 1]) (fun t => answerOf t 0 = none) = true := by
  decide +kernel

/-- The width and period of a REVISE are in range. -/
abbrev reviseInRange (s : State) (f : RequestFrame) : Prop :=
  2 ≤ (f.span 5).toNat ∧ (f.span 5).toNat ≤ 2 ^ s.tb.h ∧ (f.span 2).toNat ≤ (f.span 5).toNat

theorem meets_ReviseStagesOrApplies_accepted :
    ∀ x ∈ ([.scheduled 1001 .leading, .armed] : List OrderState),
      Meets (placedOrder (.train 0 trainOf) x) 0 .revise [127, 255, 0, 0, 2, 0, 0, 2] (fun s f =>
        namesLast s f (.train 0 trainOf) x ∧ reviseInRange s f) := by
  decide +kernel

theorem meets_ReviseStagesOrApplies_refused :
    Meets bench 0 .revise [128, 0, 0, 0, 0, 0, 0, 2] (fun _ f => 128 ≤ (f.at 0).toNat) ∧
      Meets bench 0 .revise [127, 0, 0, 0, 0, 0, 0, 2] (fun s f =>
        (f.at 0).toNat = (127 : SlotNo).val ∧ s.order 127 = none) ∧
      Meets (placedOrder (.pulse 0 5) (.scheduled 1001 .leading)) 0 .revise
        [127, 255, 0, 0, 0, 0, 0, 2] (fun s f => namesLast s f (.pulse 0 5) (.scheduled 1001 .leading)) ∧
      (∀ b ∈ ([[0, 0, 0, 0, 0, 1], [0, 0, 3, 0, 0, 2]] : List (List Byte)),
        Meets (placedOrder (.train 0 trainOf) .armed) 0 .revise ([127, 255] ++ b) (fun s f =>
          namesLast s f (.train 0 trainOf) .armed ∧ ¬reviseInRange s f)) ∧
      Meets (lastSlot (holding bench 7 0 3) { orderOf (.train 0 trainOf) .armed with ending := true })
        0 .revise [127, 255, 0, 0, 2, 0, 0, 2] (fun s f => (f.at 0).toNat = (127 : SlotNo).val ∧
          s.order 127 = some { orderOf (.train 0 trainOf) .armed with ending := true } ∧
          (s.slot 127).generation = f.at 1) := by
  and_intros <;> decide +kernel

theorem meets_FlushCancelsOldestFirst :
    Meets shaping 0 .flush [0, 0] (fun _ f => f.half 0 = 0) ∧
      Meets shaping 0 .flush [0, 0xF1] (fun s f =>
        f.half 0 ≠ 0 ∧ ∃ l, named (f.half 0) l = true ∧ s.holds 0 l = false) ∧
      Meets shaping 0 .flush [0, 0x80] (fun s f => f.half 0 ≠ 0 ∧ holdsMask s 0 (f.half 0) ∧
        s.countOrders (onMask 0 (f.half 0)) = 1) := by
  and_intros <;> decide +kernel

theorem meets_OrderReadReports :
    Meets shaping 0 .orderRead [128] (fun _ f => 128 ≤ (f.at 0).toNat) ∧
      ∀ b ∈ ([0, 127] : List Byte),
        Meets shaping 0 .orderRead [b] (fun _ f => (f.at 0).toNat < 128) := by
  refine ⟨?_, ?_⟩ <;> decide +kernel

/-- Two orders due at 1000, and one later. -/
def dueTwice : State :=
  { ((holding bench 7 0 0x0033).setOrder 3 (orderOf (.step 4 .assert) (.scheduled 1000 .absent))).setOrder 9
      (orderOf (.step 5 .invert) (.scheduled 1000 .absent)) |>.setOrder 2
      (orderOf (.step 1 .assert) (.scheduled 1002 .absent)) with
    schedule := [9, 3, 2], postSeq := 3 }

/-- Every order of a state whose orders are STEPs is in range. -/
theorem inRange_of_steps {s : State}
    (h : ∀ i, ∀ o ∈ s.order i, o.body.kind = .step) : ∀ i o, s.order i = some o → o.inRange s.horizon := by
  intro i o ho
  have hk := h i o ho
  unfold Order.inRange
  split <;> simp_all [OrderBody.kind]

theorem meets_FiringGoesInListOrder :
    dueTwice.atWork ∧ dueTwice.schedule.Nodup ∧
      (∀ i o, dueTwice.order i = some o → o.inRange dueTwice.horizon) ∧ dueTwice.tb.h ≤ 30 ∧
      dueTwice.running = true ∧ dueTwice.dueSlots = 9 :: [3] ∧
      dueTwice.order 9 = some (orderOf (.step 5 .invert) (.scheduled 1000 .absent)) ∧
      (timed dueTwice .halted).running = false ∧ shaping.dueSlots = [] := by
  exact ⟨by decide +kernel, by decide +kernel, inRange_of_steps (by decide +kernel), by decide +kernel⟩

/-- A late POST of station 0 where two orders are due at T. -/
theorem meets_LatePostAppliesAtOnce_due :
    let f := posting 0 4 2 0 0 1000 0 0 0 0x10 0
    let s := asks dueTwice 0 .post f
    Meets dueTwice 0 .post f (fun s f =>
      (∃ x ∈ f.postForm, f.postBody x s.horizon = some (.step 4 .invert) ∧ x.mode = .absolute ∧ x.late = .fire) ∧
      s.running = true ∧ s.mayTarget 0 (.step 4 .invert) ∧ s.orderCount 0 < (s.station 0).quota.toNat ∧
      (f.time 5 - s.tb.t).toNat = 0 ∧ s.tb.h ≤ 30 ∧ s.schedule.Nodup ∧ ∃ i, s.order i = none) ∧
      ∀ i o, s.order i = some o → o.inRange s.horizon :=
  ⟨by decide +kernel, inRange_of_steps (by decide +kernel)⟩

/-- R69: the orders due are fired first, so that the POST inverts the line which the one on L4 has asserted. -/
theorem test_late_post_after_firings :
    leadsTo (.post 0) (asks dueTwice 0 .post (posting 0 4 2 0 0 1000 0 0 0 0x10 0)) (fun t =>
      (t.line 4).asserted = false ∧ (t.line 5).asserted = true ∧ t.schedule = [2] ∧
        answerOf t 0 = some (.okLate, [0, 0, 0, 0, 3, 232])) = true := by
  decide +kernel

theorem meets_FiringStepOrPattern :
    ∀ b ∈ ([.step 0 .invert, .pattern 0 3 2] : List OrderBody),
      (placedOrder b (.scheduled 1000 .absent)).onlyDue 127 (orderOf b (.scheduled 1000 .absent)) ∧
        ((placedOrder b (.scheduled 1000 .absent)).group b.group).state = .normal := by
  decide +kernel

theorem meets_FiringPulse :
    ∀ ph ∈ [Phase.leading, .trailing],
      (placedOrder (.pulse 0 1) (.scheduled 1000 ph)).onlyDue 127
          (orderOf (.pulse 0 1) (.scheduled 1000 ph)) ∧
        ((placedOrder (.pulse 0 1) (.scheduled 1000 ph)).group (groupOf 0)).state = .normal := by
  decide +kernel

/-- A train due, with this record and phase; with ending as given. -/
def dueTrain (x : TrainRec) (ph : Phase) (ending : Bool) : Order :=
  { orderOf (.train 0 x) (.scheduled 1000 ph) with ending := ending }

/-- First period start, last count, no count, a pending revision, ending yes, and a trailing edge. -/
theorem meets_FiringTrain :
    ∀ x ∈ ([(trainOf, .leading, false), (⟨0, 10, some 1, none, true⟩, .leading, false),
        (⟨10, 10, none, some ⟨1, 2⟩, true⟩, .leading, false),
        (⟨4, 10, some 2, none, true⟩, .leading, true), (⟨4, 10, some 0, none, true⟩, .trailing, false)] :
        List (TrainRec × Phase × Bool)),
      (lastSlot (holding bench 7 0 3) (dueTrain x.1 x.2.1 x.2.2)).onlyDue 127
          (dueTrain x.1 x.2.1 x.2.2) ∧
        ((lastSlot (holding bench 7 0 3) (dueTrain x.1 x.2.1 x.2.2)).group (groupOf 0)).state =
          .normal := by
  decide +kernel

theorem meets_FiringInTrippedGroup :
    ∀ b ∈ ([(.step 0 .invert, .absent), (.pulse 0 1, .trailing), (.pattern 0 3 2, .absent),
        (.train 0 trainOf, .leading), (.train 0 ⟨4, 10, some 1, none, true⟩, .leading),
        (.train 0 trainOf, .trailing)] : List (OrderBody × Phase)),
      let o := orderOf b.1 (.scheduled 1000 b.2)
      let s := trippedAt (placedOrder b.1 (.scheduled 1000 b.2)) 0
      s.onlyDue 127 o ∧ o.state = .scheduled 1000 b.2 ∧ (s.group o.body.group).state = .tripped ∧
        ∀ k, groupOfPair k = o.body.group → (s.pair k).state.inGap = false := by
  decide +kernel

/-- GA ACTIVE. -/
def activeA (s : State) : State := { s with guardA := true }

theorem meets_GuardMapWritesMap :
    (∀ b ∈ ([[4, 0], [0, 4]] : List (List Byte)), Meets shaping 0 .guardMap b
        (fun _ f => 4 ≤ (f.at 0).toNat ∨ 4 ≤ (f.at 1).toNat)) ∧
      Meets shaping 2 .guardMap [1, 0] (fun s f => (f.at 0).toNat = (1 : GroupNo).val ∧
        (f.at 1).toNat < 4 ∧ ∃ l, groupOf l = 1 ∧ s.free l = false) ∧
      (∀ s ∈ [shaping, activeA shaping, trippedAt (activeA shaping) 3], ∀ m ∈ ([0, 1, 2, 3] : List Byte),
        Meets s 2 .guardMap [3, m] (fun s f => (f.at 0).toNat = (3 : GroupNo).val ∧
          (f.at 1).toNat < 4 ∧ ∀ l, groupOf l = 3 → s.free l = true)) := by
  and_intros <;> decide +kernel

theorem meets_RearmReturnsGroupToNormal :
    Meets shaping 0 .rearm [4] (fun _ f => 4 ≤ (f.at 0).toNat) ∧
      Meets shaping 0 .rearm [3] (fun s f => (f.at 0).toNat = (3 : GroupNo).val ∧
        ¬∃ l, groupOf l = 3 ∧ s.holds 0 l = true) ∧
      Meets shaping 0 .rearm [1] (fun s f => (f.at 0).toNat = (1 : GroupNo).val ∧
        (∃ l, groupOf l = 1 ∧ s.holds 0 l = true) ∧ (s.group 1).state = .normal) ∧
      Meets (trippedAt (activeA shaping) 1) 0 .rearm [1] (fun s _ =>
        (∃ l, groupOf l = 1 ∧ s.holds 0 l = true) ∧ (s.group 1).state = .tripped ∧
          s.guardA = true ∧ (s.group 1).map = .either) ∧
      Meets (trippedAt shaping 1) 0 .rearm [1] (fun s _ =>
        (∃ l, groupOf l = 1 ∧ s.holds 0 l = true) ∧ (s.group 1).state = .tripped ∧
          s.guardA = false ∧ s.guardB = false) := by
  and_intros <;> decide +kernel

theorem meets_GuardActivationTripsGroups :
    guarded.atWork ∧ guarded.guardActive .ga = false ∧
      (activeA guarded).atWork ∧ (activeA guarded).guardActive .ga = true := by decide +kernel

/-- Input 7 with RISING edges and filter 1, and these subscribers. -/
def watched (x : StationSet) (state : InputState) (edges : Edges) (filter : Byte) : State :=
  bench.setInput 7 ⟨some ⟨edges, filter⟩, x, state⟩

theorem meets_SubscribeJoinsInput :
    (∀ b ∈ ([[8, 0, 0], [0, 3, 0]] : List (List Byte)), Meets bench 3 .subscribe b
        (fun _ f => 8 ≤ (f.at 0).toNat ∨ 3 ≤ (f.at 1).toNat)) ∧
      Meets bench 3 .subscribe [7, 2, 255] (fun s f => (f.at 0).toNat = (7 : InputNo).val ∧
        (f.at 1).toNat < 3 ∧ (s.input 7).subscribers = 0) ∧
      Meets (watched 1 (.watching none) .rising 1) 3 .subscribe [7, 0, 1] (fun s f =>
        (f.at 0).toNat = (7 : InputNo).val ∧ (f.at 1).toNat < 3 ∧ (s.input 7).subscribers ≠ 0 ∧
        (s.input 7).settings = some ⟨.rising, f.at 2⟩ ∧ f.at 1 = 0) ∧
      Meets (watched 1 (.watching none) .rising 1) 3 .subscribe [7, 0, 2] (fun s f =>
        (s.input 7).subscribers ≠ 0 ∧ (s.input 7).settings = some ⟨.rising, 1⟩ ∧ f.at 2 ≠ 1) := by
  and_intros <;> decide +kernel

theorem meets_UnsubscribeLeavesInput :
    Meets bench 3 .unsubscribe [8] (fun _ f => 8 ≤ (f.at 0).toNat) ∧
      Meets bench 3 .unsubscribe [7] (fun s f => (f.at 0).toNat = (7 : InputNo).val ∧
        inSet (s.input 7).subscribers 3 = false) ∧
      (∀ x ∈ ([8, 9] : List StationSet), Meets (watched x (.watching none) .rising 1) 3 .unsubscribe [7]
        (fun s f => (f.at 0).toNat = (7 : InputNo).val ∧ inSet (s.input 7).subscribers 3 = true)) := by
  and_intros <;> decide +kernel

theorem meets_ReadCapturesTakesOldest :
    (∀ b ∈ ([0, 7] : List Byte), Meets fullJournal 1 .readCaptures [b]
        (fun _ f => (f.at 0).toNat = 0 ∨ 6 < (f.at 0).toNat)) ∧
      ∀ b ∈ ([1, 6] : List Byte), Meets fullJournal 1 .readCaptures [b] (fun s f =>
        1 ≤ (f.at 0).toNat ∧ (f.at 0).toNat ≤ 6 ∧
          (s.journal.filter (fun r => inSet r.readers 1)).length = 64) := by
  refine ⟨?_, ?_⟩ <;> decide +kernel

theorem meets_SamplesThatAcceptNothing_watching :
    bench.atWork ∧ (timed bench .halted).running = false ∧ (bench.input 7).state = .idle ∧
      ((watched 1 (.watching none) .rising 1).input 7).state = .watching none ∧
      (∀ x ∈ ([1, 255] : List Byte), ∀ e ∈ [Edges.rising, .falling, .both],
        let s := watched 1 (.watching (some .low)) e x
        s.atWork ∧ s.running = true ∧ (s.input 7).state = .watching (some .low) ∧
          (s.input 7).settings = some ⟨e, x⟩ ∧ x ≠ 0 ∧ Level.high ≠ Level.low) := by
  decide +kernel

/-- In FILTERING, one tick before the filter closes and at its close. -/
theorem meets_SamplesThatAcceptNothing_filtering :
    (let s := watched 1 (.filtering .low ⟨.rising, 999, .high⟩) .rising 2
     s.atWork ∧ s.running = true ∧ (s.input 7).state = .filtering .low ⟨.rising, 999, .high⟩ ∧
      (s.input 7).settings = some ⟨.rising, 2⟩ ∧ 999 + BitVec.setWidth 32 (2 : Byte) ≠ s.tb.t) ∧
    (let s := watched 1 (.filtering .low ⟨.rising, 998, .high⟩) .rising 2
     s.atWork ∧ s.running = true ∧ (s.input 7).state = .filtering .low ⟨.rising, 998, .high⟩ ∧
      (s.input 7).settings = some ⟨.rising, 2⟩ ∧ 998 + BitVec.setWidth 32 (2 : Byte) = s.tb.t) := by
  decide +kernel

theorem acceptsEdge_sample :
    (watched 9 (.watching (some .low)) .rising 0).acceptsEdge (.captureEdge 7 .high) 7 .high .rising 1000 :=
  ⟨by decide +kernel, rfl, ⟨.rising, 0⟩, by decide +kernel, Or.inl
    ⟨rfl, rfl, rfl, ⟨.low, by decide +kernel, by decide⟩, Or.inl ⟨rfl, rfl, by decide⟩⟩⟩

theorem acceptsEdge_close (c : Instr) (h : c = .captureEdge 7 .low ∨ c = .filterClose 7 .low) :
    (watched 9 (.filtering .high ⟨.falling, 745, .low⟩) .both 255).acceptsEdge c 7 .low .falling 745 :=
  ⟨by decide +kernel, rfl, ⟨.both, 255⟩, by decide +kernel,
    Or.inr ⟨h, ⟨.high, by decide +kernel⟩, by decide +kernel⟩⟩

theorem meets_AcceptedEdgeIsJournalled :
    (watched 9 (.watching (some .low)) .rising 0).armedOn 7 = [] ∧
      (watched 9 (.filtering .high ⟨.falling, 745, .low⟩) .both 255).armedOn 7 = [] := by
  decide +kernel

/-- An order armed on input 7, with this offset and late policy, and RISING edges without a filter. -/
def armedOrder (offset : Half) (late : LatePolicy) : Order :=
  { orderOf (.step 0 .assert) .armed with trigger := some ⟨7, offset⟩, late := late }

/-- The state with that order armed, and no order in the schedule list. -/
def armedState (offset : Half) (late : LatePolicy) (e : Time) (filter : Byte) : State :=
  let s := watched 9 (if filter = 0 then .watching (some .low) else .filtering .low ⟨.rising, e, .high⟩)
    .rising filter
  { (holding s 7 0 3).setOrder 5 (armedOrder offset late) with armed := s.armed.set 7 [5], postSeq := 1 }

/-- Offsets 1 and 65535 with filter 0 are future; offset 255 with filter 255 is due at T, and 1 is late. -/
theorem meets_AcceptedEdgeTriggersOrder :
    ∀ x ∈ ([(1, .refuse, 1000, 0), (65535, .fire, 1000, 0), (255, .refuse, 745, 255),
        (1, .refuse, 745, 255), (255, .fire, 745, 255)] :
        List (Half × LatePolicy × Time × Byte)),
      let s := armedState x.1 x.2.1 x.2.2.1 x.2.2.2
      s.armedOn 7 = [5] ∧ s.order 5 = some (armedOrder x.1 x.2.1) ∧
        (armedOrder x.1 x.2.1).state = .armed ∧
        (armedOrder x.1 x.2.1).trigger = some ⟨7, x.1⟩ ∧ s.tb.h ≤ 30 ∧
        leadsTo (if x.2.2.2 = 0 then .captureEdge 7 .high else .filterClose 7 .high) (s.setArmed 7 [])
          (fun u => u.schedule = [] ∧ u.journal.length = 1) = true := by
  decide +kernel

/-- The state of `armedState` at a late trigger with FIRE, its order of this body. -/
def lateTrigger (b : OrderBody) : State :=
  (armedState 1 .fire 745 255).setOrder 5 { armedOrder 1 .fire with body := b }

/-- Every kind, in a NORMAL and in a TRIPPED group; no order is due, since none is in the schedule list. -/
theorem meets_AcceptedEdgeTriggersOrder_fire :
    ∀ b ∈ ([.step 0 .assert, .pattern 0 3 2, .pulse 0 1, .train 0 trainOf, .train 0 ⟨4, 10, some 1, none, true⟩,
        .train 0 ⟨0, 10, none, some ⟨2, 2⟩, false⟩] : List OrderBody),
      let v := lateTrigger b
      let o := { armedOrder 1 .fire with body := b }
      v.order 5 = some o ∧ o.state = .armed ∧ o.trigger = some ⟨7, 1⟩ ∧ v.tb.h ≤ 30 ∧
        2 ^ 31 < ((745 : Time) + (1 : Half).setWidth 32 - v.tb.t).toNat ∧ o.late = .fire ∧ v.schedule = [] ∧
        (v.group o.body.group).state = .normal ∧ ((trippedAt v 0).group o.body.group).state = .tripped := by
  decide +kernel

/-- R130, R108, R109: a PULSE triggered late asserts its line and waits; in a TRIPPED group it is suppressed. -/
theorem test_late_trigger_of_pulse :
    ((lateTrigger (.pulse 0 1)).trigger 745 5).order 5 =
        some { armedOrder 1 .fire with body := .pulse 0 1, state := .scheduled 1001 .trailing, started := true } ∧
      (((lateTrigger (.pulse 0 1)).trigger 745 5).line 0).asserted = true ∧
      ((trippedAt (lateTrigger (.pulse 0 1)) 0).trigger 745 5).order 5 = none ∧
      (((trippedAt (lateTrigger (.pulse 0 1)) 0).trigger 745 5).port 0).transmitter =
        .sending (Notice.frame (.suppressed ⟨5, 0⟩ 5 1000) 0 1 0) 0 := by
  decide +kernel

/-- Two orders are due, and a late one is armed in slot 5. -/
theorem meets_AcceptedEdgeTriggersOrder_due :
    let v := dueTwice.setOrder 5 (armedOrder 1 .fire)
    (v.order 5 = some (armedOrder 1 .fire) ∧ v.dueSlots = [9, 3] ∧ v.schedule.Nodup ∧ v.tb.h ≤ 30 ∧
      2 ^ 31 < ((745 : Time) + (1 : Half).setWidth 32 - v.tb.t).toNat) ∧
      ∀ i o, v.order i = some o → o.inRange v.horizon :=
  ⟨by decide +kernel, inRange_of_steps (by decide +kernel)⟩

theorem acceptsEdge_armed :
    (armedState 65535 .fire 1000 0).acceptsEdge (.captureEdge 7 .high) 7 .high .rising 1000 ∧
      (armedState 255 .fire 745 255).acceptsEdge (.filterClose 7 .high) 7 .high .rising 745 :=
  ⟨⟨by decide +kernel, rfl, ⟨.rising, 0⟩, by decide +kernel, Or.inl
      ⟨rfl, rfl, rfl, ⟨.low, by decide +kernel, by decide⟩, Or.inl ⟨rfl, rfl, by decide⟩⟩⟩,
    ⟨by decide +kernel, rfl, ⟨.rising, 255⟩, by decide +kernel,
      Or.inr ⟨Or.inr rfl, ⟨.low, by decide +kernel⟩, by decide +kernel⟩⟩⟩

/-- Two orders armed on input 7, the older in slot 9: a late one that is refused, and a future one. -/
def armedTwice : State :=
  let s := armedState 256 .fire 745 255
  { s.setOrder 9 (armedOrder 255 .refuse) with armed := s.armed.set 7 [9, 5], postSeq := 2 }

/-- R129: one by one in list order; the late one ends LATE, the future one is due at 745 + 256. -/
theorem test_triggers_of_two_orders :
    leadsTo (.filterClose 7 .high) armedTwice (fun t => t.order 9 = none ∧ t.schedule = [5] ∧
      (t.order 5).map (fun o => o.state) = some (.scheduled 1001 .absent) ∧ t.armedOn 7 = [] ∧
      (t.port 0).notices = [.ended ⟨9, 0⟩ 5 .late 1000]) = true := by
  decide +kernel

theorem acceptsEdge_armedTwice : armedTwice.acceptsEdge (.filterClose 7 .high) 7 .high .rising 745 :=
  ⟨by decide +kernel, rfl, ⟨.rising, 255⟩, by decide +kernel,
    Or.inr ⟨Or.inr rfl, ⟨.low, by decide +kernel⟩, by decide +kernel⟩⟩

/-- Port 2 with this receiver state and buffer, and this many requests queued behind a waiting reply. -/
def receiving (x : Receiver) (buffer : List Byte) (queue : Nat) : State :=
  bench.setPort 2 { bench.port 2 with
    receiver := x, buffer := buffer, requests := List.replicate queue (request .keepalive [])
    replySlot := some (replyTo (request .keepalive []) .ok []), transmitter := .sending [1] 0 }

theorem meets_ReceiverAssemblesFrames_states :
    bench.atWork ∧ (bench.port 2).receiver = .hunt ∧
      ((receiving .inBreak [] 0).port 2).receiver = .inBreak ∧
      (let r := (receiving .header [0, 1] 0).port 2
       r.receiver = .header ∧ (r.buffer ++ [3]).length < 4) ∧
      (let r := (receiving .header [0, 1, 3] 0).port 2
       r.receiver = .header ∧ (r.buffer ++ [48]).length = 4 ∧ (48 : Byte).toNat ≤ 48 ∧
        48 < (49 : Byte).toNat) ∧
      ((receiving .body [0, 1, 4, 1] 0).port 2).receiver = .body ∧
      (let r := (receiving .check [0, 1, 3, 0] 0).port 2
       r.receiver = .check ∧ (r.buffer ++ [0]).length ≠ (r.buffer.getD 3 0).toNat + 6) := by
  decide +kernel

/-- The check step of a frame of kind `b0` without payload: all but its last check byte is in the buffer. -/
def checking (b0 : Byte) (queue : Nat) : State :=
  receiving .check [b0, 1, 3, 0, (checkValue [b0, 1, 3, 0]).extractLsb' 8 8] queue

/-- A wrong check, a reply's kind, a full queue and a queue with one place, at the last check byte. -/
theorem meets_ReceiverAssemblesFrames_complete :
    ∀ x ∈ ([(0, 0), (0x40, 0), (0, 2), (0, 1)] : List (Byte × Nat)),
      let r := (checking x.1 x.2).port 2
      let last := (checkValue [x.1, 1, 3, 0]).extractLsb' 0 8
      (checking x.1 x.2).atWork ∧ r.receiver = .check ∧ (r.buffer ++ [last]).length = (r.buffer.getD 3 0).toNat + 6 ∧
        checkValue (r.buffer.take 4) = r.buffer.getD 4 0 ++ last ∧
        checkValue (r.buffer.take 4) ≠ r.buffer.getD 4 0 ++ (last + 1) ∧
        (r.buffer.getD 0 0).toNat / 64 = (if x.1 = 0 then 0 else 1) ∧ r.requests.length = x.2 := by
  decide +kernel

/-- Port 2 with this transmitter, reply slot and notices. -/
def sendingPort (x : Transmitter) (slot : Option Reply) (notices : List Notice) : State :=
  bench.setPort 2 { bench.port 2 with transmitter := x, replySlot := slot, notices := notices }

theorem meets_TransmitterChoosesNextFrame :
    bench.atWork ∧ (bench.port 2).transmitter = .idle ∧
      (∀ t ∈ [Transmitter.sending [1] 0, .cut [1] 0], ([1] : List Byte)[0]? = some 1 ∧
        (sendingPort t none []).atWork ∧
        (let r := (sendingPort t (some (replyTo (request .keepalive []) .ok [])) []).port 2
         r.transmitter ≠ .idle ∧ r.replySlot = some (replyTo (request .keepalive []) .ok [])) ∧
        (let s := sendingPort t none [.tripCleared 3]
         (s.port 2).transmitter ≠ .idle ∧ (s.port 2).replySlot = none ∧
          (s.port 2).notices = .tripCleared 3 :: [] ∧ (s.station 2).session = .bound ∧
          (s.station 2).number = some 1) ∧
        (let r := (sendingPort t none []).port 2
         r.transmitter ≠ .idle ∧ r.replySlot = none ∧ r.notices = [])) := by
  decide +kernel

/-- Table 9-2: 0Dh as the first character of a frame, and as its second. -/
theorem test_character_bits :
    (sentCharacters [0x0D, 0x0D]).map Character.bits =
      [[false, true, false, true, true, false, false, false, false, true, true],
       [false, true, false, true, true, false, false, false, false, false, true]] := by decide +kernel

theorem meets_PowerOnResetBeginsAndEnds :
    ({ bench with inReset := true } : State).inReset = true ∧ bench.inReset = false ∧
      Instr.tick ≠ .resetBegin ∧ ∀ a b x y, Instr.tick ≠ .powerOnResetEnd a b x y :=
  ⟨rfl, rfl, by decide, fun _ _ _ _ h => by cases h⟩

/-! ### A state that every law admits, with something in every record -/

/-- Station 0 holds L4 and L5 (pair 2 bound, PRIMARY_ON) and L8; a train stands on L4 and a STEP is armed on input 7;
station 1 waits for L5; the journal holds a record; group 3 is TRIPPED; a tick waits to be taken. -/
def busy : State :=
  let s := { holding (awaiting (watched 9 (.watching (some .low)) .rising 0) 9 1 0x0030 4) 7 0 0x0130 with
    groups := bench.groups.set 3 ⟨.tripped, .either⟩
    journal := [⟨4, 7, .rising, 990, 8⟩], captureSeq := 5, claimCounter := 9
    pairs := bench.pairs.set 2 ⟨.primaryOn, 5⟩
    schedule := [0], armed := bench.armed.set 7 [5], postSeq := 2, pending := [.tick] }
  ((s.setLine 4 ⟨true, .normal, false, true, some 7, true⟩).setOrder 0
    (orderOf (.train 4 { trainOf with begun := true }) (.scheduled 1003 .trailing))).setOrder 5
    { orderOf (.step 8 .assert) .armed with trigger := some ⟨7, 9⟩, postSeq := 1 }

theorem busy_steps : (match step busy with
    | .next t => decide (t.tb.t = 1001 ∧ t.pending = [])
    | .fault _ => false
    | .refused _ => false) = true := by decide +kernel

theorem meets_WhichCommandChangesWhat :
    (match exec .tick busy with
      | .next t => decide (t.tb.t = 1001)
      | .fault _ => false
      | .refused _ => false) = true ∧ busy.atWork ∧ Instr.tick ≠ .resetBegin := by
  decide +kernel

theorem meets_StepKeepsQueuesAndJournal : busy.queueLaw ∧ busy.captureLaw := by decide +kernel

theorem meets_StepKeepsClaimTable : busy.claimLaw ∧ busy.waitLaw := by
  have h : ∀ l, (busy.line l).holder = none ∨ (busy.line l).holder = some 7 ∧
      named 0x0130 l = true := by decide +kernel
  refine ⟨⟨by decide +kernel, by decide +kernel, by decide +kernel, ?_⟩, by decide +kernel⟩
  intro l id hl
  rcases h l with e | ⟨e, n⟩
  · rw [e] at hl; cases hl
  · rw [e] at hl; cases hl
    exact ⟨⟨7, 0, 0x0130, .hold⟩, by decide +kernel, rfl, n⟩

/-- The two orders of the state, and no other. -/
theorem busy_orders : ∀ i o, busy.order i = some o →
    (i = 0 ∧ o = orderOf (.train 4 { trainOf with begun := true }) (.scheduled 1003 .trailing)) ∨
      (i = 5 ∧
        o = { orderOf (.step 8 .assert) .armed with trigger := some ⟨7, 9⟩, postSeq := 1 }) := by
  have h : ∀ i, ∀ o ∈ busy.order i,
    (i = 0 ∧ o = orderOf (.train 4 { trainOf with begun := true }) (.scheduled 1003 .trailing)) ∨
      (i = 5 ∧
        o = { orderOf (.step 8 .assert) .armed with trigger := some ⟨7, 9⟩, postSeq := 1 }) := by
    decide +kernel
  exact fun i o => h i o

theorem busy_order_0 : busy.order 0 =
    some (orderOf (.train 4 { trainOf with begun := true }) (.scheduled 1003 .trailing)) := by
  decide +kernel

theorem busy_order_5 : busy.order 5 =
    some { orderOf (.step 8 .assert) .armed with trigger := some ⟨7, 9⟩, postSeq := 1 } := by
  decide +kernel

theorem meets_StepKeepsOrdersOnHeldLines : busy.orderLaw := by
  have h : ∀ i, ∀ o ∈ busy.order i, busy.isBound o.station = true ∧
      (∀ l, named o.body.targets l = true → busy.holds o.station l = true) ∧
      ∀ k, busy.pairBound k = true → named o.body.targets (partner k) = false := by
    decide +kernel
  exact fun i o => h i o

theorem meets_StepKeepsPairsBreakBeforeMake : busy.pairLaw := by
  have h : ∀ k, (busy.pair k).state = .unbound ∨ (k = 2 ∧ (busy.pair k).state = .primaryOn) := by
    decide +kernel
  intro k
  rcases h k with e | ⟨rfl, e⟩
  · rw [e]; trivial
  · rw [e]; decide +kernel

theorem meets_StepKeepsSessionsQuotasAndTimebase :
    busy.sessionLaw ∧ busy.quotaLaw ∧ busy.timebaseLaw ∧ busy.haltedLaw := by
  refine ⟨by decide +kernel, by decide +kernel, by decide +kernel, ?_⟩
  exact fun h => absurd h (by decide +kernel)

theorem meets_StepKeepsTrippedGroupsSafe : busy.trippedLaw := by decide +kernel

theorem meets_StepKeepsSchedule : busy.scheduleLaw := by
  have hs : busy.schedule = [0] := rfl
  have ha : ∀ c, busy.armedOn c = if c = 7 then [5] else [] := by decide +kernel
  refine ⟨by decide +kernel, ?_, by rw [hs]; exact List.pairwise_singleton .., ?_, ?_, ?_, ?_, ?_⟩
  · intro i
    rw [hs, List.mem_singleton]
    constructor
    · rintro rfl
      exact ⟨_, 1003, .trailing, busy_order_0, rfl⟩
    · rintro ⟨o, e, ph, ho, hst⟩
      rcases busy_orders i o ho with ⟨rfl, _⟩ | ⟨_, rfl⟩
      · rfl
      · cases hst
  · intro i o ho
    rcases busy_orders i o ho with ⟨_, rfl⟩ | ⟨_, rfl⟩
    · exact Or.inl (by decide +kernel)
    · exact Or.inr rfl
  · intro c; rw [ha]; split <;> decide
  · intro c i
    rw [ha]
    constructor
    · intro h
      split at h
      · subst c; rw [List.mem_singleton] at h; subst h
        exact ⟨_, _, busy_order_5, rfl, rfl, rfl⟩
      · cases h
    · rintro ⟨o, tr, ho, hst, htr, rfl⟩
      rcases busy_orders i o ho with ⟨_, rfl⟩ | ⟨rfl, rfl⟩
      · cases hst
      · cases htr; decide
  · intro i o ho hst
    rcases busy_orders i o ho with ⟨_, rfl⟩ | ⟨_, rfl⟩
    · cases hst
    · exact fun h => by cases h
  · intro i o ho
    rcases busy_orders i o ho with ⟨_, rfl⟩ | ⟨_, rfl⟩
    · refine ⟨?_, ?_, ?_, ?_, ?_⟩
      · exact show 2 ≤ (10 : Span).toNat by decide
      · exact show (10 : Span).toNat ≤ 2 ^ 24 by decide
      · exact show (4 : Span).toNat ≤ (10 : Span).toNat by decide
      · exact fun r hr => by cases hr
      · exact fun _ _ => show 0 < (4 : Span).toNat ∧ (4 : Span).toNat < (10 : Span).toNat by decide
    · trivial

end Sys2Proof.Tests
end

section
/-! What the part's own work keeps. Relations between the state before an operation and the state after it:
`Steady` (settings, counters and the post sequence, which only a request of their own may change), `NoNewWork` (the
timebase and the sessions stand, and no order and no gap has come that was not there), `Draining` (no new request to
take and no new waiting claim), and `Calm`, which is all three: what everything short of a request's owner, a teardown
and the timebase's own events does. Each relation holds of the small updates, and so of every operation that is made of
them. -/

namespace Sys2Proof.Machine

/-! ### The relations -/

/-- The settings and counters that only a request of their own may change stand: the exponents, the port rate, the guard
maps, the settings of the lines, the post sequence and the session counters; no trip is cleared and no drive turns
OFF. -/
structure Steady (s t : State) : Prop where
  pending : t.pending = s.pending
  inReset : t.inReset = s.inReset
  rateDivisor : t.rateDivisor = s.rateDivisor
  exponentD : t.tb.d = s.tb.d
  exponentH : t.tb.h = s.tb.h
  tripped : ∀ g, (s.group g).state = .tripped → (t.group g).state = .tripped
  map : ∀ g, (t.group g).map = (s.group g).map
  polarity : ∀ l, (t.line l).polarity = (s.line l).polarity
  safe : ∀ l, (t.line l).safe = (s.line l).safe
  drive : ∀ l, (s.line l).driveOn = true → (t.line l).driveOn = true
  postSeq : t.postSeq = s.postSeq
  counter : ∀ n, (t.station n).counter = (s.station n).counter

/-- Every order of `t` stood in its slot in `s` already, as an order of the same station. -/
def OrdersFrom (s t : State) : Prop :=
  ∀ i o, t.order i = some o → ∃ a, s.order i = some a ∧ a.station = o.station

/-- The timebase is not RUNNING, and no order exists: nothing can start a gap (R12). -/
def State.idle (s : State) : Prop := s.running = false ∧ ∀ i, s.order i = none

/-- The timebase and the sessions stand, every order was there, and an idle part has started no gap. -/
structure NoNewWork (s t : State) : Prop where
  tb : t.tb = s.tb
  stations : t.stations = s.stations
  orders : OrdersFrom s t
  gaps : s.idle → ∀ k, (t.pair k).state.inGap = true → (s.pair k).state.inGap = true

/-- No port gets a request to take, and the waiting list only shrinks. -/
structure Draining (s t : State) : Prop where
  settled : ∀ n, (s.port n).settled → (t.port n).settled
  waiting : ∀ w ∈ t.waiting, w ∈ s.waiting

/-- What the part's own work between requests leaves. -/
structure Calm (s t : State) : Prop extends Steady s t, NoNewWork s t, Draining s t

theorem Steady.refl (s : State) : Steady s s := by constructor <;> intros <;> first | rfl | assumption

theorem Steady.trans {s t u : State} (a : Steady s t) (b : Steady t u) : Steady s u where
  pending := b.pending.trans a.pending
  inReset := b.inReset.trans a.inReset
  rateDivisor := b.rateDivisor.trans a.rateDivisor
  exponentD := b.exponentD.trans a.exponentD
  exponentH := b.exponentH.trans a.exponentH
  tripped g h := b.tripped g (a.tripped g h)
  map g := (b.map g).trans (a.map g)
  polarity l := (b.polarity l).trans (a.polarity l)
  safe l := (b.safe l).trans (a.safe l)
  drive l h := b.drive l (a.drive l h)
  postSeq := b.postSeq.trans a.postSeq
  counter n := (b.counter n).trans (a.counter n)

theorem OrdersFrom.refl (s : State) : OrdersFrom s s := fun _ o h => ⟨o, h, rfl⟩

theorem OrdersFrom.trans {s t u : State} (a : OrdersFrom s t) (b : OrdersFrom t u) :
    OrdersFrom s u := by
  intro i o h
  obtain ⟨o', h', e'⟩ := b i o h
  obtain ⟨o'', h'', e''⟩ := a i o' h'
  exact ⟨o'', h'', e''.trans e'⟩

/-- Where no order was, none is. -/
theorem OrdersFrom.none {s t : State} (a : OrdersFrom s t) (h : ∀ i, s.order i = none) (i : SlotNo) :
    t.order i = none := by
  cases ho : t.order i with
  | none => rfl
  | some o =>
    obtain ⟨b, hb, -⟩ := a i o ho
    rw [h i] at hb; cases hb

theorem NoNewWork.refl (s : State) : NoNewWork s s := ⟨rfl, rfl, OrdersFrom.refl s, fun _ _ h => h⟩

theorem NoNewWork.running {s t : State} (a : NoNewWork s t) : t.running = s.running := by
  unfold State.running; rw [a.tb]

theorem NoNewWork.idle {s t : State} (a : NoNewWork s t) (h : s.idle) : t.idle :=
  ⟨a.running.trans h.1, a.orders.none h.2⟩

theorem NoNewWork.trans {s t u : State} (a : NoNewWork s t) (b : NoNewWork t u) : NoNewWork s u where
  tb := b.tb.trans a.tb
  stations := b.stations.trans a.stations
  orders := a.orders.trans b.orders
  gaps h k hk := a.gaps h k (b.gaps (a.idle h) k hk)

theorem Draining.refl (s : State) : Draining s s := ⟨fun _ h => h, fun _ h => h⟩

theorem Draining.trans {s t u : State} (a : Draining s t) (b : Draining t u) : Draining s u where
  settled n h := b.settled n (a.settled n h)
  waiting w h := a.waiting w (b.waiting w h)

theorem Calm.refl (s : State) : Calm s s := ⟨Steady.refl s, NoNewWork.refl s, Draining.refl s⟩

theorem Calm.trans {s t u : State} (a : Calm s t) (b : Calm t u) : Calm s u where
  toSteady := a.toSteady.trans b.toSteady
  toNoNewWork := a.toNoNewWork.trans b.toNoNewWork
  toDraining := a.toDraining.trans b.toDraining

theorem Calm.station {s t : State} (a : Calm s t) (n : StationNo) : t.station n = s.station n := by
  unfold State.station; rw [a.stations]

theorem Calm.foldl {α : Type} {f : State → α → State} (step : ∀ s x, Calm s (f s x)) (l : List α)
    (s : State) : Calm s (l.foldl f s) := foldl_frame Calm.refl Calm.trans step l s

/-- The other frames keep what `Steady` names. -/
theorem OnlyPorts.steady {s t : State} (h : OnlyPorts s t) : Steady s t := by
  rw [OnlyPorts] at h; rw [h]; exact { Steady.refl s with pending := rfl }

theorem OnlyPorts.noNewWork {s t : State} (h : OnlyPorts s t) : NoNewWork s t := by
  rw [OnlyPorts] at h; rw [h]; exact { NoNewWork.refl s with tb := rfl }

/-! ### The small updates -/

/-- Lists, records of the capture unit and guard activities may change freely. -/
def OnlyLists (s t : State) : Prop :=
  t = { s with
    freeChoices := t.freeChoices, held := t.held, claimCounter := t.claimCounter
    schedule := t.schedule, armed := t.armed, guardA := t.guardA, guardB := t.guardB
    inputs := t.inputs, journal := t.journal, captureSeq := t.captureSeq
    journalLost := t.journalLost }

theorem OnlyLists.calm {s t : State} (h : OnlyLists s t) : Calm s t := by
  rw [OnlyLists] at h; rw [h]; exact { Calm.refl s with pending := rfl }

theorem noNewWork_setLine (s : State) (l : LineNo) (r : LineRec) : NoNewWork s (s.setLine l r) :=
  { NoNewWork.refl s with tb := rfl }

/-- A line record that keeps its settings. -/
theorem calm_setLine (s : State) (l : LineNo) (r : LineRec) (hp : r.polarity = (s.line l).polarity)
    (hs : r.safe = (s.line l).safe) (hd : (s.line l).driveOn = true → r.driveOn = true) :
    Calm s (s.setLine l r) where
  toNoNewWork := noNewWork_setLine s l r
  settled _ h := h
  waiting _ h := h
  toSteady := {
    Steady.refl s with
    polarity := fun x => by rw [State.setLine_line]; split <;> simp_all
    safe := fun x => by rw [State.setLine_line]; split <;> simp_all
    drive := fun x => by rw [State.setLine_line]; split <;> simp_all }

theorem calm_setPair (s : State) (k : PairNo) (r : PairUnit)
    (h : s.idle → r.state.inGap = true → (s.pair k).state.inGap = true) :
    Calm s (s.setPair k r) where
  toSteady := { Steady.refl s with pending := rfl }
  settled _ h := h
  waiting _ h := h
  tb := rfl
  stations := rfl
  orders := OrdersFrom.refl s
  gaps hi j := by
    rw [State.setPair_pair]; split
    · rename_i e; subst e; exact h hi
    · exact id

theorem noNewWork_setGroup (s : State) (g : GroupNo) (r : GroupRec) : NoNewWork s (s.setGroup g r) :=
  { NoNewWork.refl s with tb := rfl }

/-- A group that trips keeps its guard map. -/
theorem calm_setGroup_tripped (s : State) (g : GroupNo) :
    Calm s (s.setGroup g { s.group g with state := .tripped }) where
  toNoNewWork := noNewWork_setGroup s g _
  settled _ h := h
  waiting _ h := h
  toSteady := {
    Steady.refl s with
    tripped := fun x => by rw [State.setGroup_group]; split <;> simp
    map := fun x => by rw [State.setGroup_group]; split <;> simp_all }

theorem calm_setSlot (s : State) (i : SlotNo) (r : Slot)
    (h : ∀ o, r.order = some o → ∃ a, s.order i = some a ∧ a.station = o.station) :
    Calm s (s.setSlot i r) where
  toSteady := { Steady.refl s with pending := rfl }
  settled _ h := h
  waiting _ h := h
  tb := rfl
  stations := rfl
  orders j o hj := by
    rw [setSlot_order] at hj
    split at hj
    · rename_i e; subst e; exact h o hj
    · exact ⟨o, hj, rfl⟩
  gaps _ _ h := h

/-- A settled port stays settled when a notice joins its queue: its transmitter stays busy, or it has no request. -/
theorem settled_noticed {r : PortRec} (h : r.settled) (b : Byte) (x : Notice) :
    (r.noticed b x).settled := by
  unfold PortRec.noticed
  rcases h with h | ⟨h1, h2⟩
  · left
    dsimp only
    repeat' split
    all_goals exact h
  · right
    dsimp only
    rw [if_neg h2]
    split <;> exact ⟨h1, h2⟩

theorem calm_appendNotice (s : State) (n : StationNo) (x : Notice) : Calm s (s.appendNotice n x) where
  toSteady := (appendNotice_frame s n x).steady
  toNoNewWork := (appendNotice_frame s n x).noNewWork
  settled m h := by
    rw [appendNotice_port]; split
    · rename_i e; rw [← e.1]; exact settled_noticed h _ x
    · exact h
  waiting w h := by rwa [(appendNotice_frame s n x).waiting] at h

theorem calm_appendNotices (s : State) (who : StationNo → Bool) (x : Notice) :
    Calm s (s.appendNotices who x) := Calm.foldl (fun s n => calm_appendNotice s n x) _ s

/-! ### Lines and pairs -/

theorem calm_setAsserted (s : State) (l : LineNo) (a : Bool) : Calm s (s.setAsserted l a) :=
  calm_setLine s l _ rfl rfl id

theorem calm_setPairState (s : State) (k : PairNo) (x : PairState) (h : s.idle → x.inGap = false) :
    Calm s (s.setPairState k x) :=
  calm_setPair s k _ fun hi hx => by rw [h hi] at hx; cases hx

/-- A pair set from its levels is in no gap (R22). -/
theorem calm_setFromLevels (s : State) (k : PairNo) : Calm s (s.setFromLevels k) := by
  refine calm_setPairState s k _ fun _ => ?_
  split
  · rfl
  · split <;> rfl

/-- The pair unit starts to turn: a side is deasserted and a gap starts (R23, R24). -/
theorem calm_startGap {s : State} (h : ¬s.idle) (off : LineNo) (k : PairNo) (gap : PairState) :
    Calm s ((s.setAsserted off false).setPairState k gap) :=
  (calm_setAsserted s off false).trans (calm_setPairState _ k gap fun hi => absurd hi h)

/-- The pair unit turns at once, with gap 0. -/
theorem calm_turnAtOnce {s : State} (h : ¬s.idle) (off on : LineNo) (k : PairNo) (side : PairState) :
    Calm s (((s.setAsserted off false).setAsserted on true).setPairState k side) :=
  ((calm_setAsserted s off false).trans (calm_setAsserted _ on true)).trans
    (calm_setPairState _ k side fun hi => absurd hi h)

theorem calm_turnToPrimary {s : State} (h : ¬s.idle) (k : PairNo) : Calm s (s.turnToPrimary k) := by
  unfold State.turnToPrimary; split
  · exact calm_turnAtOnce h _ _ k _
  · exact calm_startGap h _ k _

theorem calm_turnToPartner {s : State} (h : ¬s.idle) (k : PairNo) : Calm s (s.turnToPartner k) := by
  unfold State.turnToPartner; split
  · exact calm_turnAtOnce h _ _ k _
  · exact calm_startGap h _ k _

theorem calm_pairAssert {s : State} (h : ¬s.idle) (k : PairNo) : Calm s (s.pairAssert k) := by
  unfold State.pairAssert
  split
  case h_1 | h_2 | h_3 => exact Calm.refl s
  all_goals exact calm_turnToPrimary h k

theorem calm_pairDeassert {s : State} (h : ¬s.idle) (k : PairNo) : Calm s (s.pairDeassert k) := by
  unfold State.pairDeassert
  split
  case h_1 | h_2 | h_3 => exact Calm.refl s
  all_goals exact calm_turnToPartner h k

theorem calm_pairCommand {s : State} (h : ¬s.idle) (k : PairNo) (c : LineCommand) :
    Calm s (s.pairCommand k c) := by
  have ha := calm_pairAssert h k
  have hd := calm_pairDeassert h k
  cases c with
  | assert => exact ha
  | deassert => exact hd
  | invert => simp only [State.pairCommand]; split <;> assumption
  | level a => simp only [State.pairCommand]; split <;> assumption

theorem calm_command {s : State} (h : ¬s.idle) (l : LineNo) (c : LineCommand) :
    Calm s (s.command l c) := by
  unfold State.command
  repeat' split
  · exact calm_pairCommand h _ c
  · exact calm_setAsserted s l _
  · exact Calm.refl s

theorem calm_completeGap (s : State) (k : PairNo) : Calm s (s.completeGap k) := by
  unfold State.completeGap
  split
  · split
    · exact (calm_setAsserted s _ true).trans (calm_setPairState _ k _ fun _ => rfl)
    · exact Calm.refl s
  · split
    · exact (calm_setAsserted s _ true).trans (calm_setPairState _ k _ fun _ => rfl)
    · exact Calm.refl s
  all_goals exact Calm.refl s

theorem calm_completeGaps (s : State) : Calm s s.completeGaps := Calm.foldl calm_completeGap _ s

theorem calm_safeDeassert (s : State) (l : LineNo) : Calm s (s.safeDeassert l) := by
  unfold State.safeDeassert; split
  · exact Calm.refl s
  · exact calm_setAsserted s l false

theorem calm_safeAssert (s : State) (l : LineNo) : Calm s (s.safeAssert l) := by
  unfold State.safeAssert; split
  · exact calm_setAsserted s l true
  · exact Calm.refl s

theorem calm_safePair (s : State) (k : PairNo) : Calm s (s.safePair k) :=
  ((((calm_safeDeassert s _).trans (calm_safeDeassert _ _)).trans (calm_safeAssert _ _)).trans
    (calm_safeAssert _ _)).trans (calm_setFromLevels _ k)

theorem calm_toSafe (s : State) (l : LineNo) : Calm s (s.toSafe l) := by
  unfold State.toSafe; split
  · exact calm_safePair s _
  · exact calm_setAsserted s l _

theorem calm_applyAction (s : State) (m : LineMask) (a : LineAction) : Calm s (s.applyAction m a) := by
  cases a with
  | hold => exact Calm.refl s
  | safe => exact Calm.foldl calm_toSafe _ s

theorem calm_tripGroup (s : State) (g : GroupNo) : Calm s (s.tripGroup g) :=
  (calm_setGroup_tripped s g).trans (Calm.foldl calm_toSafe _ _)

theorem calm_tripNotices (s : State) (g : GroupNo) (i : GuardInput) : Calm s (s.tripNotices g i) :=
  calm_appendNotices s _ _

theorem calm_setGuard (s : State) (i : GuardInput) (a : Bool) : Calm s (s.setGuard i a) := by
  cases i <;> exact OnlyLists.calm rfl

theorem calm_activate (s : State) (i : GuardInput) : Calm s (s.activate i) :=
  (((calm_setGuard s i true).trans (Calm.foldl calm_tripGroup _ _)).trans
    (Calm.foldl (fun s g => calm_tripNotices s g i) _ _)).trans (OnlyLists.calm rfl)

/-! ### Orders -/

/-- Where an order stands the part is not idle. -/
theorem not_idle_of_order {s : State} {i : SlotNo} {o : Order} (h : s.order i = some o) : ¬s.idle := by
  intro hi; rw [hi.2 i] at h; cases h

theorem calm_setOrder {s : State} {i : SlotNo} {a o : Order} (h : s.order i = some a)
    (hs : a.station = o.station) : Calm s (s.setOrder i o) :=
  calm_setSlot s i _ fun _ ho => ⟨a, h, by cases ho; exact hs⟩

theorem calm_placeOrder {s : State} {i : SlotNo} {a o : Order} (h : s.order i = some a)
    (hs : a.station = o.station) : Calm s (s.placeOrder i o) :=
  (calm_setOrder h hs).trans (OnlyLists.calm rfl)

theorem calm_removeOrder (s : State) (i : SlotNo) : Calm s (s.removeOrder i) :=
  (calm_setSlot s i ⟨(s.slot i).generation + 1, none⟩ fun _ h => by cases h).trans
    (OnlyLists.calm rfl)

theorem calm_removeOrders (s : State) (l : List SlotNo) : Calm s (s.removeOrders l) :=
  Calm.foldl calm_removeOrder l s

theorem calm_fired (s : State) (cause : EdgeCause) (h : Handle) (o : Order) :
    Calm s (s.fired cause h o) := by
  unfold State.fired; split
  · exact calm_appendNotice s _ _
  · exact Calm.refl s

theorem calm_ended (s : State) (h : Handle) (o : Order) (r : EndReason) : Calm s (s.ended h o r) := by
  unfold State.ended; split
  · exact calm_appendNotice s _ _
  · exact Calm.refl s

theorem calm_suppress (s : State) (i : SlotNo) (o : Order) : Calm s (s.suppress i o) :=
  (calm_removeOrder s i).trans (calm_appendNotice _ _ _)

/-- A command leaves every order, so that the part does not become idle by it. -/
theorem OnlyLines.not_idle {s t : State} (a : OnlyLines s t) (h : ¬s.idle) : ¬t.idle := fun hi =>
  h ⟨by simpa [State.running, a.tb] using hi.1, fun i => by rw [← a.order]; exact hi.2 i⟩

theorem calm_edgeCommand {s : State} (h : ¬s.idle) (cause : EdgeCause) (l : LineNo) (c : LineCommand) :
    Calm s (s.edgeCommand cause l c) := by
  cases cause with
  | due => exact (calm_completeGap s _).trans (calm_command ((completeGap_frame s _).not_idle h) l c)
  | atPost => exact calm_command h l c
  | atTrigger => exact calm_command h l c

theorem calm_patternCommands {s : State} (h : ¬s.idle) (cause : EdgeCause) (g : GroupNo)
    (mask levels : BitVec 4) : Calm s (s.patternCommands cause g mask levels) := by
  have key : ∀ (l : List (Fin 4)) (u : State), ¬u.idle → Calm u (l.foldl (fun s j =>
      if mask.getLsbD j.val then s.edgeCommand cause (groupLine g j) (.level (levels.getLsbD j.val))
      else s) u) := by
    intro l
    induction l with
    | nil => exact fun u _ => Calm.refl u
    | cons j l ih =>
      intro u hu
      rw [List.foldl_cons]
      split
      · exact (calm_edgeCommand hu cause _ _).trans
          (ih _ ((edgeCommand_frame u cause _ _).not_idle hu))
      · exact ih u hu
  exact key _ s h

/-- The shape of an edge that drives a line and places the order again. -/
theorem calm_edge_place {s t : State} {i : SlotNo} {a o : Order} (hs : s.order i = some a)
    (f : OnlyLines s t) (h : Calm s t) (ho : a.station = o.station) : Calm s (t.placeOrder i o) :=
  h.trans (calm_placeOrder ((f.order i).trans hs) ho)

section Edges

variable {s : State} {i : SlotNo} {a : Order} (hi : s.order i = some a)
include hi

theorem calm_fireStep (cause : EdgeCause) (o : Order) (l : LineNo) (x : StepAction) :
    Calm s (s.fireStep cause i o l x) := by
  unfold State.fireStep; split
  · exact ((calm_edgeCommand (not_idle_of_order hi) cause l _).trans (calm_removeOrder _ i)).trans
      (calm_fired _ _ _ _)
  · exact calm_suppress s i o

theorem calm_firePattern (cause : EdgeCause) (o : Order) (g : GroupNo) (mask levels : BitVec 4) :
    Calm s (s.firePattern cause i o g mask levels) := by
  unfold State.firePattern; split
  · exact ((calm_patternCommands (not_idle_of_order hi) cause g _ _).trans
      (calm_removeOrder _ i)).trans (calm_fired _ _ _ _)
  · exact calm_suppress s i o

theorem calm_firePulseLeading (cause : EdgeCause) {o : Order} (ho : a.station = o.station) (l : LineNo)
    (w : Span) : Calm s (s.firePulseLeading cause i o l w) := by
  unfold State.firePulseLeading; split
  · exact (calm_edge_place hi (edgeCommand_frame s cause l _)
      (calm_edgeCommand (not_idle_of_order hi) cause l _) (by exact ho)).trans (calm_fired _ _ _ _)
  · exact calm_suppress s i o

theorem calm_firePulseTrailing (cause : EdgeCause) (o : Order) (l : LineNo) :
    Calm s (s.firePulseTrailing cause i o l) := by
  unfold State.firePulseTrailing; split
  · exact ((calm_edgeCommand (not_idle_of_order hi) cause l _).trans (calm_removeOrder _ i)).trans
      (calm_ended _ _ _ _)
  · exact calm_suppress s i o

theorem calm_endTrain (cause : EdgeCause) (o : Order) (l : LineNo) (r : EndReason) :
    Calm s (s.endTrain cause i o l r) := by
  unfold State.endTrain; split
  · exact ((calm_edgeCommand (not_idle_of_order hi) cause l _).trans (calm_removeOrder _ i)).trans
      (calm_ended _ _ _ _)
  · exact (calm_removeOrder s i).trans (calm_appendNotice _ _ _)

theorem calm_widthStep (cause : EdgeCause) {o : Order} (ho : a.station = o.station) (l : LineNo)
    (x : TrainRec) : Calm s (s.widthStep cause i o l x) := by
  unfold State.widthStep; dsimp only; split
  · exact (calm_edge_place hi (edgeCommand_frame s cause l _)
      (calm_edgeCommand (not_idle_of_order hi) cause l _) (by exact ho)).trans (calm_fired _ _ _ _)
  · exact calm_placeOrder hi ho

theorem calm_periodStart (cause : EdgeCause) {o : Order} (ho : a.station = o.station) (l : LineNo)
    (x : TrainRec) : Calm s (s.periodStart cause i o l x) := by
  unfold State.periodStart
  split
  · exact calm_endTrain hi cause o l _
  · split
    · exact calm_endTrain hi cause o l _
    · exact calm_widthStep hi cause ho l _

theorem calm_trainTrailing (cause : EdgeCause) {o : Order} (ho : a.station = o.station) (l : LineNo)
    (x : TrainRec) : Calm s (s.trainTrailing cause i o l x) :=
  calm_edge_place hi (edgeCommand_frame s cause l _)
    (calm_edgeCommand (not_idle_of_order hi) cause l _) ho

/-- An edge of an order in slot `i`, whose station is that of the order which stands there (R73). -/
theorem calm_fireEdge (cause : EdgeCause) {o : Order} (ho : a.station = o.station) :
    Calm s (s.fireEdge cause i o) := by
  unfold State.fireEdge
  split
  · exact calm_fireStep hi cause o _ _
  · exact calm_firePattern hi cause o _ _ _
  · split
    · exact calm_firePulseTrailing hi cause o _
    all_goals exact calm_firePulseLeading hi cause ho _ _
  · split
    · exact calm_trainTrailing hi cause ho _ _
    all_goals exact calm_periodStart hi cause ho _ _

end Edges

theorem calm_fireDueSlot (s : State) (i : SlotNo) : Calm s (s.fireDueSlot i) := by
  unfold State.fireDueSlot
  split
  · rename_i o ho
    split
    · exact calm_fireEdge ho .due rfl
    · exact Calm.refl s
  · exact Calm.refl s

theorem calm_fireDue (s : State) : Calm s s.fireDue := Calm.foldl calm_fireDueSlot _ s

theorem calm_cancelOrder (s : State) (i : SlotNo) : Calm s (s.cancelOrder i) := by
  unfold State.cancelOrder
  split
  · exact Calm.refl s
  · rename_i o ho
    split
    · exact (calm_command (not_idle_of_order ho) _ _).trans (calm_removeOrder _ i)
    · exact calm_removeOrder s i

/-! ### Captures -/

theorem calm_countLost (s : State) (r : StationSet) : Calm s (s.countLost r) :=
  Calm.foldl (fun u n => OnlyLists.calm (t := u.setLost n _) rfl) _ s

theorem calm_headRemoval (s : State) : Calm s s.headRemoval := OnlyLists.calm rfl

theorem calm_makeRoom (s : State) : Calm s s.makeRoom := by
  unfold State.makeRoom
  split
  · exact Calm.refl s
  · split
    · exact Calm.refl s
    · rename_i r rest _
      exact (Calm.trans (t := { s with journal := rest }) (OnlyLists.calm rfl)
        (calm_countLost _ _)).trans (calm_headRemoval _)

/-- A slot written with an order of the station whose order stood there in `s`, after work that only takes orders away:
an armed order is triggered late, behind the orders due (R69, R130). -/
theorem Calm.setOrder {s t : State} {i : SlotNo} {a o : Order} (h : Calm s t) (hi : s.order i = some a)
    (ho : a.station = o.station) : Calm s (t.setOrder i o) where
  toSteady := { h.toSteady with pending := h.pending }
  settled := h.settled
  waiting := h.waiting
  tb := h.tb
  stations := h.stations
  orders j x hj := by
    rw [State.setOrder, setSlot_order] at hj
    split at hj
    · rename_i e; subst e; cases hj; exact ⟨a, hi, ho⟩
    · exact h.orders j x hj
  gaps := h.gaps

theorem order_setOrder (s : State) (i : SlotNo) (o : Order) : (s.setOrder i o).order i = some o := by
  rw [State.setOrder, setSlot_order, if_pos rfl]

theorem calm_trigger (e : Time) (s : State) (i : SlotNo) : Calm s (s.trigger e i) := by
  unfold State.trigger
  split
  · exact Calm.refl s
  · rename_i o ho
    split
    · split
      · exact (calm_removeOrder s i).trans (calm_appendNotice _ _ _)
      · refine Calm.trans ?_ (calm_fireEdge (order_setOrder _ i _) _ rfl)
        exact (calm_fireDue s).setOrder ho rfl
      · exact calm_placeOrder ho rfl
      · exact calm_placeOrder ho rfl
    · exact Calm.refl s

theorem calm_accept (s : State) (c : InputNo) (d : Direction) (e : Time) : Calm s (s.accept c d e) := by
  have h1 : Calm s (s.makeRoom.appendRecord c d e) := (calm_makeRoom s).trans (OnlyLists.calm rfl)
  have h2 : ∀ u : State, Calm u (u.triggerAll c e) := fun u =>
    Calm.trans (t := u.setArmed c []) (OnlyLists.calm rfl) (Calm.foldl (calm_trigger e) _ _)
  exact (h1.trans (calm_appendNotices _ _ _)).trans (h2 _)

theorem calm_setInputState (s : State) (c : InputNo) (x : InputState) :
    Calm s (s.setInputState c x) := OnlyLists.calm rfl

theorem calm_transition (s : State) (c : InputNo) (x : InputSettings) (reference level : Level) :
    Calm s (s.transition c x reference level) := by
  unfold State.transition
  split
  · split
    · exact (calm_setInputState s c _).trans (calm_accept _ _ _ _)
    · exact calm_setInputState s c _
  · exact calm_setInputState s c _

theorem calm_filterSample (s : State) (c : InputNo) (x : InputSettings) (reference : Level)
    (edge : EdgeInFilter) (level : Level) : Calm s (s.filterSample c x reference edge level) := by
  unfold State.filterSample
  split
  · split
    · exact (calm_setInputState s c _).trans (calm_accept _ _ _ _)
    · exact calm_setInputState s c _
  · split
    · exact calm_setInputState s c _
    · exact Calm.refl s

theorem calm_sample (s : State) (c : InputNo) (level : Level) : Calm s (s.sample c level) := by
  unfold State.sample
  split
  · split
    · exact calm_setInputState s c _
    · split
      · exact Calm.refl s
      · exact calm_transition s c _ _ _
    · exact calm_filterSample s c _ _ _ _
    · exact Calm.refl s
  · exact Calm.refl s

theorem calm_closeFilter (s : State) (c : InputNo) : Calm s (s.closeFilter c) := by
  unfold State.closeFilter
  split
  · exact calm_sample s c _
  · exact Calm.refl s

theorem calm_settle (s : State) : Calm s s.settle :=
  ((calm_fireDue s).trans (calm_completeGaps _)).trans (Calm.foldl calm_closeFilter _ _)

theorem calm_captureTeardown (s : State) (n : StationNo) : Calm s (s.captureTeardown n) :=
  OnlyLists.calm rfl

/-! ### Claims -/

theorem calm_grantLine (id : Byte) (s : State) (l : LineNo) : Calm s (s.grantLine id l) :=
  calm_setLine s l _ rfl rfl fun h => by dsimp only; split <;> simp [h]

theorem calm_grant (s : State) (c : Claim) : Calm s (s.grant c) :=
  Calm.trans (t := { s with held := s.held ++ [c] }) (OnlyLists.calm rfl)
    (Calm.foldl (calm_grantLine c.id) _ _)

theorem calm_grantWalk : ∀ (todo kept : List WaitingClaim) (s : State),
    Calm s (s.grantWalk kept todo).1
  | [], _, s => Calm.refl s
  | w :: rest, kept, s => by
    unfold State.grantWalk; split
    · exact ((calm_grant s w.claim).trans (calm_appendNotice _ _ _)).trans
        (calm_grantWalk rest kept _)
    · exact calm_grantWalk rest (kept ++ [w]) s

/-- A walk of the grant scan leaves only claims that it found. -/
theorem mem_of_mem_grantWalk : ∀ (todo kept : List WaitingClaim) (s : State) (w : WaitingClaim),
    w ∈ (s.grantWalk kept todo).2.1 → w ∈ kept ++ todo
  | [], kept, s, w, h => by simpa [State.grantWalk] using h
  | v :: rest, kept, s, w, h => by
    unfold State.grantWalk at h
    split at h
    · have := mem_of_mem_grantWalk rest kept _ w h
      simp only [List.mem_append, List.mem_cons] at this ⊢
      tauto
    · have := mem_of_mem_grantWalk rest (kept ++ [v]) s w h
      simpa using this

/-- A waiting list that only shrinks. -/
theorem Calm.shrinkWaiting {s t : State} (h : Calm s t) {l : List WaitingClaim}
    (hl : ∀ w ∈ l, w ∈ s.waiting) : Calm s { t with waiting := l } :=
  { h with pending := h.pending, waiting := hl }

theorem calm_grantScanFrom : ∀ (fuel : Nat) (s : State), Calm s (s.grantScanFrom fuel)
  | 0, s => Calm.refl s
  | fuel + 1, s => by
    have h : Calm s { (s.grantWalk [] s.waiting).1 with
        waiting := (s.grantWalk [] s.waiting).2.1 } :=
      (calm_grantWalk s.waiting [] s).shrinkWaiting fun w hw => by
        simpa using mem_of_mem_grantWalk s.waiting [] s w hw
    unfold State.grantScanFrom
    dsimp only
    split
    · exact h.trans (calm_grantScanFrom fuel _)
    · exact h

theorem calm_grantScan (s : State) : Calm s s.grantScan := calm_grantScanFrom _ s

theorem calm_giveUp (s : State) (c : Claim) (a : LineAction) : Calm s (s.giveUp c a) :=
  ((calm_applyAction s c.lines a).trans
    (Calm.foldl (f := State.freeLine) (fun s l => calm_setLine s l _ rfl rfl id) _ _)).trans
    (OnlyLists.calm rfl)

/-- A part of the waiting list is kept. -/
theorem calm_filterWaiting (s : State) (q : WaitingClaim → Bool) :
    Calm s { s with waiting := s.waiting.filter q } :=
  (Calm.refl s).shrinkWaiting fun _ h => List.mem_of_mem_filter h

theorem calm_claimTeardown (s : State) (n : StationNo) : Calm s (s.claimTeardown n) :=
  ((Calm.foldl (fun s (c : Claim) => calm_giveUp s c c.loss)
    (s.held.filter fun c => c.station == n) s).trans (calm_filterWaiting _ _)).trans
    (calm_grantScan _)

theorem calm_expireWaits (s : State) : Calm s s.expireWaits := by
  unfold State.expireWaits
  split
  · exact Calm.refl s
  · exact ((calm_filterWaiting s _).trans
      (Calm.foldl (fun _ _ => calm_appendNotice _ _ _) _ _)).trans (calm_grantScan _)

theorem calm_withdraw (s : State) (p : StationNo) (id : Byte) : Calm s (s.withdraw p id) :=
  (calm_filterWaiting s _).trans (calm_grantScan _)

theorem calm_releaseClaim (s : State) (p : StationNo) (c : Claim) (a : LineAction) :
    Calm s (s.releaseClaim p c a) :=
  ((calm_removeOrders s _).trans (calm_giveUp _ c a)).trans (calm_grantScan _)

end Sys2Proof.Machine
end

section
/-! The taking of a request by cases, the owner of each request row, and what the owners keep: most are `Calm`, and each
of the others changes what its own row may (`Within`). -/

namespace Sys2Proof.Machine

/-! ### Small updates, for `Steady` alone -/

theorem steady_setStation (s : State) (n : StationNo) (r : StationRec)
    (h : r.counter = (s.station n).counter) : Steady s (s.setStation n r) :=
  { Steady.refl s with
    pending := rfl
    counter := fun m => by rw [State.setStation_station]; split <;> simp_all }

theorem steady_setTb (s : State) (b : Timebase) (hd : b.d = s.tb.d) (hh : b.h = s.tb.h) :
    Steady s (s.setTb b) :=
  { Steady.refl s with pending := rfl, exponentD := hd, exponentH := hh }

theorem steady_setSlot (s : State) (i : SlotNo) (r : Slot) : Steady s (s.setSlot i r) :=
  { Steady.refl s with pending := rfl }

theorem steady_placeOrder (s : State) (i : SlotNo) (o : Order) : Steady s (s.placeOrder i o) :=
  { Steady.refl s with pending := rfl }

theorem calm_setArmed (s : State) (c : InputNo) (l : List SlotNo) : Calm s (s.setArmed c l) :=
  OnlyLists.calm rfl

theorem steady_waiting (s : State) (l : List WaitingClaim) : Steady s { s with waiting := l } :=
  { Steady.refl s with pending := rfl }

theorem steady_disarm (s : State) (n : StationNo) : Steady s (s.disarm n) := by
  unfold State.disarm; split
  · exact steady_setTb s _ rfl rfl
  · exact Steady.refl s

/-! ### Teardowns and expiries -/

theorem steady_teardown (s : State) (n : StationNo) (lapsed : Bool) : Steady s (s.teardown n lapsed) := by
  have h1 : Steady s (s.endSession n lapsed) := steady_setStation s n _ rfl
  have h2 : ∀ u : State, Steady u (u.orderTeardown n) := fun u =>
    (calm_removeOrders u _).toSteady.trans (steady_setStation _ n _ rfl)
  exact (((h1.trans (h2 _)).trans (calm_claimTeardown _ n).toSteady).trans
    (calm_captureTeardown _ n).toSteady).trans (steady_disarm _ n)

theorem steady_lapse (s : State) (n : StationNo) : Steady s (s.lapse n) := by
  unfold State.lapse; split
  · exact (steady_teardown s n true).trans (portTeardown_frame _ n false).steady
  · exact Steady.refl s

theorem steady_armExpiry (s : State) : Steady s s.armExpiry := by
  have h : ∀ b : Timebase, b.d = s.tb.d → b.h = s.tb.h → Steady s { s with tb := b } := steady_setTb s
  unfold State.armExpiry
  split
  · dsimp only
    split
    · refine Steady.trans ?_ (calm_appendNotice _ _ _).toSteady
      exact h _ rfl rfl
    · exact h _ rfl rfl
  · exact Steady.refl s

theorem steady_expireOwed (s : State) : Steady s s.expireOwed :=
  ((steady_armExpiry s).trans (calm_expireWaits _).toSteady).trans
    (foldl_frame Steady.refl Steady.trans steady_lapse _ _)

/-! ### The taking of a request, by cases -/

/-- Only the ports and the lease timers differ: a request has left its queue and its lease is set again, or a reply has
been placed. -/
def OnlyLeases (s t : State) : Prop :=
  t = { s with ports := t.ports, stations := t.stations } ∧
    ∀ n, t.station n = { s.station n with leaseTimer := (t.station n).leaseTimer }

theorem OnlyLeases.refl (s : State) : OnlyLeases s s := ⟨rfl, fun _ => rfl⟩

theorem OnlyLeases.trans {s t u : State} (a : OnlyLeases s t) (b : OnlyLeases t u) : OnlyLeases s u := by
  obtain ⟨a1, a2⟩ := a
  obtain ⟨b1, b2⟩ := b
  exact ⟨by rw [b1, a1], fun n => by rw [b2 n, a2 n]⟩

theorem OnlyPorts.leases {s t : State} (h : OnlyPorts s t) : OnlyLeases s t := by
  refine ⟨?_, fun n => by rw [h.station]⟩
  rw [OnlyPorts] at h; rw [h]

theorem leases_restartLease (s : State) (n : StationNo) : OnlyLeases s (s.restartLease n) := by
  refine ⟨rfl, fun m => ?_⟩
  rw [State.restartLease, State.setStation_station]
  split
  · rename_i e; rw [e]
  · rfl

theorem leases_restartIfCurrent (s : State) (n : StationNo) (b : Byte) :
    OnlyLeases s (s.restartIfCurrent n b) := by
  unfold State.restartIfCurrent; split
  · exact leases_restartLease s n
  · exact OnlyLeases.refl s

theorem leases_restartIfBound (s : State) (n : StationNo) : OnlyLeases s (s.restartIfBound n) := by
  unfold State.restartIfBound; split
  · exact leases_restartLease s n
  · exact OnlyLeases.refl s

theorem OnlyLeases.steady {s t : State} (h : OnlyLeases s t) : Steady s t := by
  obtain ⟨h1, h2⟩ := h
  have hc : ∀ n, (t.station n).counter = (s.station n).counter := fun n => by rw [h2 n]
  rw [h1] at hc ⊢
  exact { Steady.refl s with pending := rfl, counter := hc }

theorem OnlyLeases.tb {s t : State} (h : OnlyLeases s t) : t.tb = s.tb := by rw [h.1]

/-- What a replayed request changes (R156). -/
theorem leases_replay (s : State) (p : StationNo) (r : Reply) : OnlyLeases s (s.replay p r) := by
  rw [replay_eq]
  exact (leases_restartIfBound s p).trans (OnlyPorts.leases rfl)

/-- An executed request (R155): it is answered after the common checks, or after its owner's part. -/
theorem execute_cases (s : State) (p : StationNo) (f : RequestFrame)
    (owner : StationNo → RequestFrame → State → OwnerReply) :
    OnlyLeases s (s.execute p f owner) ∨
      ∃ u, OnlyLeases s u ∧ u.commonRefusal p f = none ∧
        OnlyPorts (owner p f u).state (s.execute p f owner) := by
  have hl := leases_restartIfCurrent s p f.session
  unfold State.execute
  dsimp only
  split
  · exact .inl (hl.trans (answer_frame _ p f _ _).leases)
  · rename_i hc
    refine .inr ⟨_, hl, hc, ?_⟩
    split
    · exact (answer_frame _ p f _ _).trans (portTeardown_frame _ p true)
    · exact answer_frame _ p f _ _

/-- A request served (R155): only ports and leases differ, or the owner has acted on a request of the row, which the
common checks let pass. -/
theorem serve_cases (s : State) (p : StationNo) (row : RequestFrame → Bool)
    (owner : StationNo → RequestFrame → State → OwnerReply) :
    OnlyLeases s (s.serve p row owner) ∨
      ∃ f u, row f = true ∧ OnlyLeases s u ∧ u.commonRefusal p f = none ∧
        OnlyPorts (owner p f u).state (s.serve p row owner) := by
  have hd := (dequeue_frame s p).leases
  unfold State.serve
  split
  · exact .inl (OnlyLeases.refl s)
  · rename_i f _
    split
    · rename_i hrow
      split
      · exact .inl (hd.trans (leases_replay _ p _))
      · rcases execute_cases (s.dequeue p) p f owner with h | ⟨u, hu, hc, ho⟩
        · exact .inl (hd.trans h)
        · exact .inr ⟨f, u, hrow, hd.trans hu, hc, ho⟩
    · exact .inl (OnlyLeases.refl s)

/-- The taking of a request (R155): it is served, or the station's owed expiry is made instead (R142). -/
theorem take_eq_lapse_or_serve (s : State) (p : StationNo) (row : RequestFrame → Bool)
    (owner : StationNo → RequestFrame → State → OwnerReply) :
    s.take p row owner = s.lapse p ∨ s.take p row owner = s.serve p row owner := by
  unfold State.take; split
  · exact .inl rfl
  · exact .inr rfl

/-! ### The owners -/

/-- The owner of a request row; of any other command, the owner that refuses an unknown request. -/
def rowOwner : Instr → StationNo → RequestFrame → State → OwnerReply
  | .bind _ => bindOwner
  | .unbind _ => unbindOwner
  | .keepalive _ => keepaliveOwner
  | .portStatus _ => portStatusOwner
  | .timeRead _ => timeReadOwner
  | .timeStartImmediate _ => timeStartImmediateOwner
  | .timeStartOnMark _ => timeStartOnMarkOwner
  | .timeStop _ => timeStopOwner
  | .claim _ => claimOwner
  | .release _ => releaseOwner
  | .shape _ => shapeOwner
  | .lineRead _ => lineReadOwner
  | .pairBind _ => pairBindOwner
  | .pairUnbind _ => pairUnbindOwner
  | .post _ => postOwner
  | .cancelNow _ => cancelNowOwner
  | .cancelAtEnd _ => cancelAtEndOwner
  | .revise _ => reviseOwner
  | .flush _ => flushOwner
  | .orderRead _ => orderReadOwner
  | .guardMap _ => guardMapOwner
  | .rearm _ => rearmOwner
  | .subscribe _ => subscribeOwner
  | .unsubscribe _ => unsubscribeOwner
  | .readCaptures _ => readCapturesOwner
  | _ => unknownOwner

/-- A request row takes the request of its port by its owner (R155). -/
theorem exec_requestRow {c : Instr} {p : StationNo} {row : RequestFrame → Bool}
    (h : requestRow c = some (p, row)) (s : State) : exec c s = .next (s.take p row (rowOwner c)) := by
  cases c <;> cases h <;> rfl

theorem rowOf_of_request {c : RequestCode} {f : RequestFrame} (h : f.request = some c) :
    rowOf c f = true := by simp [rowOf, h]

/-- A frame is of a row when its byte names another value than the other row's. -/
theorem rowOfEither_of_request {c : RequestCode} {f : RequestFrame} (h : f.request = some c) {i : Nat}
    {other : Byte} (ho : f.at i ≠ other) : rowOfEither c i other f = true := by
  have hp : f.payload[i]? ≠ some other := fun hp => ho (by simp [RequestFrame.at, hp])
  simp [rowOfEither, h, hp]

/-- Whatever the request, its owner is that of its own request row at its port. -/
theorem requestOwner_eq_rowOwner (p : StationNo) (f : RequestFrame) :
    ∃ c row, requestRow c = some (p, row) ∧ row f = true ∧ requestOwner p f = rowOwner c p f := by
  unfold requestOwner
  cases hc : f.request with
  | none => exact ⟨.unknownRequest p, _, rfl, by simp [hc], rfl⟩
  | some c =>
    have row := rowOf_of_request hc
    cases c with
    | bind => exact ⟨.bind p, _, rfl, row, rfl⟩
    | unbind => exact ⟨.unbind p, _, rfl, row, rfl⟩
    | keepalive => exact ⟨.keepalive p, _, rfl, row, rfl⟩
    | portStatus => exact ⟨.portStatus p, _, rfl, row, rfl⟩
    | timeRead => exact ⟨.timeRead p, _, rfl, row, rfl⟩
    | timeStart =>
      dsimp only
      split
      · rename_i h
        exact ⟨.timeStartOnMark p, _, rfl, rowOfEither_of_request hc (by rw [h]; decide), rfl⟩
      · rename_i h
        exact ⟨.timeStartImmediate p, _, rfl, rowOfEither_of_request hc h, rfl⟩
    | timeStop => exact ⟨.timeStop p, _, rfl, row, rfl⟩
    | claim => exact ⟨.claim p, _, rfl, row, rfl⟩
    | release => exact ⟨.release p, _, rfl, row, rfl⟩
    | shape => exact ⟨.shape p, _, rfl, row, rfl⟩
    | lineRead => exact ⟨.lineRead p, _, rfl, row, rfl⟩
    | pair =>
      dsimp only
      split
      · rename_i h
        exact ⟨.pairUnbind p, _, rfl, rowOfEither_of_request hc (by rw [h]; decide), rfl⟩
      · rename_i h
        exact ⟨.pairBind p, _, rfl, rowOfEither_of_request hc h, rfl⟩
    | post => exact ⟨.post p, _, rfl, row, rfl⟩
    | cancel =>
      dsimp only
      split
      · rename_i h
        exact ⟨.cancelAtEnd p, _, rfl, rowOfEither_of_request hc (by rw [h]; decide), rfl⟩
      · rename_i h
        exact ⟨.cancelNow p, _, rfl, rowOfEither_of_request hc h, rfl⟩
    | revise => exact ⟨.revise p, _, rfl, row, rfl⟩
    | flush => exact ⟨.flush p, _, rfl, row, rfl⟩
    | orderRead => exact ⟨.orderRead p, _, rfl, row, rfl⟩
    | guardMap => exact ⟨.guardMap p, _, rfl, row, rfl⟩
    | rearm => exact ⟨.rearm p, _, rfl, row, rfl⟩
    | subscribe => exact ⟨.subscribe p, _, rfl, row, rfl⟩
    | unsubscribe => exact ⟨.unsubscribe p, _, rfl, row, rfl⟩
    | readCaptures => exact ⟨.readCaptures p, _, rfl, row, rfl⟩

/-! ### The calm owners -/

section CalmOwners

variable (p : StationNo) (f : RequestFrame) (s : State)

theorem calm_releaseOwner : Calm s (releaseOwner p f s).state := by
  unfold releaseOwner
  split
  · exact Calm.refl s
  · split
    · exact calm_releaseClaim s p _ _
    · split
      · exact calm_withdraw s p _
      · exact Calm.refl s

theorem calm_lineReadOwner : Calm s (lineReadOwner p f s).state := by
  unfold lineReadOwner; split <;> exact Calm.refl s

theorem calm_bindPair (k : PairNo) (gap : Byte) : Calm s (s.bindPair k gap) := by
  have h : Calm s (s.setPair k { s.pair k with gap := gap }) := calm_setPair s k _ fun _ hg => hg
  unfold State.bindPair
  dsimp only
  split
  · exact h
  · split
    · exact (h.trans (calm_setAsserted _ _ _)).trans (calm_setFromLevels _ k)
    · exact h.trans (calm_setFromLevels _ k)

theorem calm_pairBindOwner : Calm s (pairBindOwner p f s).state := by
  unfold pairBindOwner; split
  · exact Calm.refl s
  · exact calm_bindPair s _ _

theorem calm_pairUnbindOwner : Calm s (pairUnbindOwner p f s).state := by
  unfold pairUnbindOwner; split
  · exact Calm.refl s
  · exact calm_setPairState s _ _ fun _ => rfl

theorem calm_cancelNowOwner : Calm s (cancelNowOwner p f s).state := by
  unfold cancelNowOwner; split
  · exact Calm.refl s
  · exact calm_cancelOrder s _

variable {p f s}

/-- The live order that a handle names stands in its slot (R56). -/
theorem order_of_liveOrder {i : SlotNo} {g : Byte} {o : Order} (h : s.liveOrder p i g = some o) :
    s.order i = some o := by
  unfold State.liveOrder at h
  split at h
  · rename_i a ha
    split at h
    · rw [ha, h]
    · cases h
  · cases h

theorem order_of_cancelChecks {i : SlotNo} {o : Order} (h : cancelChecks p f s = .ok (i, o)) :
    s.order i = some o := by
  unfold cancelChecks at h
  split at h
  · cases h
  · split at h
    · cases h
    · split at h
      · cases h
      · rename_i ho; cases h; exact order_of_liveOrder ho

theorem order_of_reviseChecks {i : SlotNo} {o : Order} {l : LineNo} {x : TrainRec}
    (h : reviseChecks p f s = .ok (i, o, l, x)) : s.order i = some o := by
  unfold reviseChecks at h
  split at h
  · cases h
  · split at h
    · cases h
    · rename_i ho
      repeat' split at h
      all_goals cases h
      exact order_of_liveOrder ho

variable (p f s)

theorem calm_cancelAtEndOwner : Calm s (cancelAtEndOwner p f s).state := by
  unfold cancelAtEndOwner; split
  · exact Calm.refl s
  · rename_i i o hc
    split
    · exact calm_setOrder (order_of_cancelChecks hc) rfl
    · exact calm_cancelOrder s i

theorem calm_reviseOwner : Calm s (reviseOwner p f s).state := by
  unfold reviseOwner; split
  · exact Calm.refl s
  · rename_i i o l x hc
    split <;> exact calm_setOrder (order_of_reviseChecks hc) rfl

theorem calm_flushOwner : Calm s (flushOwner p f s).state := by
  unfold flushOwner
  split
  · exact Calm.refl s
  · split
    · exact Calm.refl s
    · exact Calm.foldl calm_cancelOrder _ s

theorem calm_orderReadOwner : Calm s (orderReadOwner p f s).state := by
  unfold orderReadOwner; split <;> exact Calm.refl s

theorem calm_setInput (c : InputNo) (r : InputRec) : Calm s (s.setInput c r) := OnlyLists.calm rfl

theorem calm_subscribeOwner : Calm s (subscribeOwner p f s).state := by
  unfold subscribeOwner
  split
  · exact Calm.refl s
  · split
    · split
      · exact calm_setInput s _ _
      · split
        · exact calm_setInput s _ _
        · exact Calm.refl s
    · exact calm_setInput s _ _

theorem calm_unsubscribeOwner : Calm s (unsubscribeOwner p f s).state := by
  unfold unsubscribeOwner
  split
  · exact Calm.refl s
  · split
    · exact Calm.refl s
    · exact (calm_removeOrders s _).trans (OnlyLists.calm rfl)

theorem calm_readCapturesOwner : Calm s (readCapturesOwner p f s).state := by
  unfold readCapturesOwner; split
  · exact OnlyLists.calm rfl
  · exact Calm.refl s

end CalmOwners

/-! ### What a command may change -/

/-- What the command `c` may change of the records that `Steady` work leaves. -/
structure Within (c : Instr) (s t : State) : Prop where
  pending : t.pending = s.pending
  rateDivisor : t.rateDivisor = s.rateDivisor
  exponents : t.tb.d ≠ s.tb.d ∨ t.tb.h ≠ s.tb.h →
    s.tb.state = .halted ∧ ∃ p, c = .timeStartImmediate p ∨ c = .timeStartOnMark p
  rearmed : ∀ g, (s.group g).state = .tripped → (t.group g).state = .normal → ∃ p, c = .rearm p
  mapped : ∀ g, (t.group g).map ≠ (s.group g).map → ∃ p, c = .guardMap p
  shaped : ∀ l, ((t.line l).polarity ≠ (s.line l).polarity ∨ (t.line l).safe ≠ (s.line l).safe ∨
    ((s.line l).driveOn = true ∧ (t.line l).driveOn = false)) → ∃ p, c = .shape p
  posted : t.postSeq ≠ s.postSeq → t.postSeq = s.postSeq + 1 ∧ ∃ p, c = .post p
  bound : ∀ n, (t.station n).counter ≠ (s.station n).counter → c = .bind n

theorem Steady.within {s t : State} (h : Steady s t) (c : Instr) : Within c s t where
  pending := h.pending
  rateDivisor := h.rateDivisor
  exponents hd := by simp [h.exponentD, h.exponentH] at hd
  rearmed g hg ht := by rw [h.tripped g hg] at ht; cases ht
  mapped g hg := absurd (h.map g) hg
  shaped l hl := by
    rcases hl with hl | hl | ⟨hs, ht⟩
    · exact absurd (h.polarity l) hl
    · exact absurd (h.safe l) hl
    · rw [h.drive l hs] at ht; cases ht
  posted hp := absurd h.postSeq hp
  bound n hn := absurd (h.counter n) hn

/-- Steady work after a command's own change. -/
theorem Within.steady {c : Instr} {s t u : State} (a : Within c s t) (b : Steady t u) : Within c s u where
  pending := b.pending.trans a.pending
  rateDivisor := b.rateDivisor.trans a.rateDivisor
  exponents h := a.exponents (by rwa [b.exponentD, b.exponentH] at h)
  rearmed g hg hu := a.rearmed g hg (by
    cases ht : (t.group g).state with
    | normal => rfl
    | tripped => rw [b.tripped g ht] at hu; cases hu)
  mapped g h := a.mapped g (by rwa [b.map] at h)
  shaped l h := a.shaped l (by
    rw [b.polarity, b.safe] at h
    refine h.imp_right (Or.imp_right fun ⟨h1, h2⟩ => ⟨h1, ?_⟩)
    cases ht : (t.line l).driveOn with
    | false => rfl
    | true => rw [b.drive l ht] at h2; cases h2)
  posted h := by rw [b.postSeq] at h ⊢; exact a.posted h
  bound n h := a.bound n (by rwa [b.counter] at h)

/-- A request taken out of its queue before the command's own change. -/
theorem OnlyLeases.within {c : Instr} {s t u : State} (a : OnlyLeases s t) (b : Within c t u) :
    Within c s u := by
  have hc : ∀ n, (t.station n).counter = (s.station n).counter := a.steady.counter
  obtain ⟨a1, -⟩ := a
  exact {
    pending := by rw [b.pending, a1]
    rateDivisor := by rw [b.rateDivisor, a1]
    exponents := by have := b.exponents; rwa [a1] at this
    rearmed := by have := b.rearmed; rwa [a1] at this
    mapped := by have := b.mapped; rwa [a1] at this
    shaped := by have := b.shaped; rwa [a1] at this
    posted := by have := b.posted; rwa [a1] at this
    bound := fun n h => b.bound n (by rwa [hc]) }

/-- Only the timebase's parameters differ, and the timebase was HALTED. -/
theorem within_setTb {c : Instr} {p : StationNo} (hc : c = .timeStartImmediate p ∨ c = .timeStartOnMark p)
    {s : State} (h : s.tb.state = .halted) (b : Timebase) : Within c s { s with tb := b } :=
  { (Steady.refl s).within c with pending := rfl, exponents := fun _ => ⟨h, p, hc⟩ }

section Owners

variable (p : StationNo) (f : RequestFrame) (s : State)

/-- TIME_START passes its checks only in HALTED and with its parameters in range (R5). -/
theorem timeStartRefusal_eq_none {s : State} {f : RequestFrame} (h : timeStartRefusal s f = none) :
    s.tb.state = .halted ∧ (f.at 1).toNat ≤ 10 ∧ 16 ≤ (f.at 2).toNat ∧ (f.at 2).toNat ≤ 30 := by
  unfold timeStartRefusal at h
  split at h
  · cases h
  · rename_i hs
    split at h
    · rename_i hr
      obtain ⟨-, hd, h1, h2, -⟩ := hr
      exact ⟨not_not.mp hs, hd, h1, h2⟩
    · cases h

theorem within_timeStartImmediateOwner :
    Within (.timeStartImmediate p) s (timeStartImmediateOwner p f s).state := by
  unfold timeStartImmediateOwner; split
  · exact (Steady.refl s).within _
  · rename_i hn
    exact (within_setTb (.inl rfl) (timeStartRefusal_eq_none hn).1 _).steady
      (calm_appendNotices _ _ _).toSteady

theorem within_timeStartOnMarkOwner :
    Within (.timeStartOnMark p) s (timeStartOnMarkOwner p f s).state := by
  unfold timeStartOnMarkOwner; split
  · exact (Steady.refl s).within _
  · rename_i hn
    exact within_setTb (.inr rfl) (timeStartRefusal_eq_none hn).1 _

theorem calm_stopSampling : Calm s s.stopSampling := OnlyLists.calm rfl

theorem steady_halt : Steady s s.halt := by
  unfold State.halt
  split
  · exact (steady_setTb s { s.tb with state := .halted } rfl rfl).trans
      (calm_stopSampling _).toSteady
  · exact steady_setTb s _ rfl rfl
  · exact Steady.refl s

theorem steady_timeStopOwner : Steady s (timeStopOwner p f s).state := by
  unfold timeStopOwner; split
  · exact Steady.refl s
  · exact steady_halt s

theorem within_bindOwner : Within (.bind p) s (bindOwner p f s).state := by
  have h : ∀ r, Within (.bind p) s (s.setStation p r) := fun r =>
    { (Steady.refl s).within (.bind p) with
      pending := rfl
      bound := fun n hn => by
        by_cases e : n = p
        · rw [e]
        · rw [State.setStation_station_ne _ _ _ e] at hn; exact absurd rfl hn }
  unfold bindOwner
  split
  · exact (Steady.refl s).within _
  · split
    · exact (Steady.refl s).within _
    · exact (h _).steady (OnlyPorts.steady rfl)

theorem steady_portStatusOwner : Steady s (portStatusOwner p f s).state := by
  unfold portStatusOwner
  split
  · dsimp only
    split
    · exact OnlyPorts.steady rfl
    · exact Steady.refl s
  · exact Steady.refl s

theorem steady_claimOwner : Steady s (claimOwner p f s).state := by
  have h : Calm s { s with claimCounter := s.nextClaimId } := OnlyLists.calm rfl
  unfold claimOwner
  split
  · exact Steady.refl s
  · split
    · exact h.toSteady.trans (calm_grant _ _).toSteady
    · split
      · exact Steady.refl s
      · split
        · exact Steady.refl s
        · exact h.toSteady.trans (steady_waiting _ _)

theorem shape_frame (m : LineMask) (x : ShapeForm) : OnlyLines s (s.shape m x) :=
  (foldl_frame OnlyLines.refl OnlyLines.trans (f := State.shapeLine x) (fun _ _ => rfl) _ s).trans
    (foldl_frame OnlyLines.refl OnlyLines.trans toSafe_frame _ _)

/-- A command that touches line records and pair units only. -/
theorem OnlyLines.within_shape {s t : State} (h : OnlyLines s t) : Within (.shape p) s t := by
  rw [OnlyLines] at h; rw [h]
  exact { (Steady.refl s).within (.shape p) with pending := rfl, shaped := fun _ _ => ⟨p, rfl⟩ }

theorem within_shapeOwner : Within (.shape p) s (shapeOwner p f s).state := by
  have hs := (Steady.refl s).within (.shape p)
  unfold shapeOwner
  split
  · exact hs
  · split
    · exact hs
    · split
      · exact hs
      · split
        · exact hs
        · exact (shape_frame s _ _).within_shape p

theorem within_guardMapOwner : Within (.guardMap p) s (guardMapOwner p f s).state := by
  have h : ∀ g m, Within (.guardMap p) s (s.setGroup g { s.group g with map := m }) := fun g m =>
    { (Steady.refl s).within (.guardMap p) with
      pending := rfl
      rearmed := fun x hx => by
        rw [State.setGroup_group]; split
        · rename_i e; subst e; simp [hx]
        · simp [hx]
      mapped := fun _ _ => ⟨p, rfl⟩ }
  unfold guardMapOwner
  split
  · exact (Steady.refl s).within _
  · rename_i g m _
    unfold State.remap
    dsimp only
    split
    · split
      · exact (h g m).steady ((calm_tripGroup _ g).trans (calm_tripNotices _ g _)).toSteady
      · exact h g m
    · exact h g m

theorem within_rearmOwner : Within (.rearm p) s (rearmOwner p f s).state := by
  have h : ∀ g, Within (.rearm p) s (s.setGroup g { s.group g with state := .normal }) := fun g =>
    { (Steady.refl s).within (.rearm p) with
      pending := rfl
      rearmed := fun _ _ _ => ⟨p, rfl⟩
      mapped := fun x => by rw [State.setGroup_group]; split <;> simp_all }
  have hs := (Steady.refl s).within (.rearm p)
  unfold rearmOwner
  split
  · exact hs
  · split
    · exact hs
    · split
      · exact hs
      · split
        · exact hs
        · exact (h _).steady (calm_appendNotices _ _ _).toSteady

/-- Steady work and the advance of the post sequence (R61), in either order. -/
theorem Steady.nextPost {s t : State} (h : Steady s t) : Steady s.nextPost t.nextPost :=
  { h with pending := h.pending, postSeq := congrArg (· + 1) h.postSeq }

theorem Steady.within_post {s t : State} (h : Steady s.nextPost t) : Within (.post p) s t :=
  Within.steady (t := s.nextPost)
    { (Steady.refl s).within (.post p) with pending := rfl, posted := fun _ => ⟨rfl, p, rfl⟩ } h

theorem within_postFuture (x : PostForm) (b : OrderBody) (due : Time) :
    Within (.post p) s (postFuture p f s x b due).state := by
  unfold postFuture; split
  · exact (Steady.refl s).within _
  · exact Steady.within_post p (steady_placeOrder s.nextPost _ _)

theorem within_postLateFire (x : PostForm) (b : OrderBody) :
    Within (.post p) s (postLateFire p f s x b).state := by
  unfold postLateFire; split
  · exact (Steady.refl s).within _
  · refine Steady.within_post p ?_
    exact ((calm_fireDue s).toSteady.nextPost.trans (steady_setSlot _ _ _)).trans
      (calm_fireEdge (order_setOrder _ _ _) _ rfl).toSteady

theorem within_postArmed (x : PostForm) (b : OrderBody) (tr : CaptureTrigger) :
    Within (.post p) s (postArmed p f s x b tr).state := by
  unfold postArmed
  split
  · exact (Steady.refl s).within _
  · split
    · exact (Steady.refl s).within _
    · exact Steady.within_post p ((steady_setSlot s.nextPost _ _).trans (calm_setArmed _ _ _).toSteady)

theorem within_postOwner : Within (.post p) s (postOwner p f s).state := by
  unfold postOwner
  split
  · exact (Steady.refl s).within _
  · exact within_postArmed p f s _ _ _
  · split
    · exact within_postFuture p f s _ _ _
    · exact (Steady.refl s).within _
    · exact (Steady.refl s).within _
    · exact within_postLateFire p f s _ _

/-- Each owner changes what its row may. -/
theorem within_rowOwner {c : Instr} {row : RequestFrame → Bool} (h : requestRow c = some (p, row)) :
    Within c s (rowOwner c p f s).state := by
  cases c with
  | bind => cases h; exact within_bindOwner p f s
  | unbind => exact (steady_teardown s p false).within _
  | portStatus => exact (steady_portStatusOwner p f s).within _
  | timeStartImmediate => cases h; exact within_timeStartImmediateOwner p f s
  | timeStartOnMark => cases h; exact within_timeStartOnMarkOwner p f s
  | timeStop => exact (steady_timeStopOwner p f s).within _
  | claim => exact (steady_claimOwner p f s).within _
  | release => exact (calm_releaseOwner p f s).within _
  | shape => cases h; exact within_shapeOwner p f s
  | lineRead => exact (calm_lineReadOwner p f s).within _
  | pairBind => exact (calm_pairBindOwner p f s).within _
  | pairUnbind => exact (calm_pairUnbindOwner p f s).within _
  | post => cases h; exact within_postOwner p f s
  | cancelNow => exact (calm_cancelNowOwner p f s).within _
  | cancelAtEnd => exact (calm_cancelAtEndOwner p f s).within _
  | revise => exact (calm_reviseOwner p f s).within _
  | flush => exact (calm_flushOwner p f s).within _
  | orderRead => exact (calm_orderReadOwner p f s).within _
  | guardMap => cases h; exact within_guardMapOwner p f s
  | rearm => cases h; exact within_rearmOwner p f s
  | subscribe => exact (calm_subscribeOwner p f s).within _
  | unsubscribe => exact (calm_unsubscribeOwner p f s).within _
  | readCaptures => exact (calm_readCapturesOwner p f s).within _
  | _ => exact (Steady.refl s).within _

end Owners

end Sys2Proof.Machine
end

section
/-! What one command can do (`Effect`), the packaging of "every taking keeps it" and "every step keeps it", and the
statement of which command may change what. -/

namespace Sys2Proof.Machine

/-! ### What a command does -/

/-- What an event of the part does to the state that it acts on. -/
inductive EventWork (s : State) : State → Prop
  | calm {t : State} : Calm s t → EventWork s t
  | port {t : State} : OnlyPorts s t → EventWork s t
  | tick : EventWork s s.expireOwed.tick
  | markEdge : EventWork s s.markEdge
  | armExpiry : EventWork s s.armExpiry

/-- What the command `c` can do to `s`. -/
inductive Effect (c : Instr) (s : State) : State → Prop
  /-- The event does not occur, or power-on reset lasts. -/
  | nothing : Effect c s s
  /-- A request row takes the request of its port. -/
  | taking {p : StationNo} {row : RequestFrame → Bool} :
      requestRow c = some (p, row) → Effect c s (s.take p row (rowOwner c))
  /-- An event acts on the state that the takings before it leave. -/
  | event {t : State} : takesFirst c → s.inReset = false → EventWork s.takeDue t → Effect c s t
  /-- A lease boundary, with the requests of its instant. -/
  | boundary : c = .leaseBoundary → Effect c s s.meetBoundary
  /-- The expiry of a lease. -/
  | expiry (n : StationNo) : Effect c s (s.lapse n)
  /-- A break. -/
  | lineBreak (p : StationNo) :
      Effect c s ((s.breakSession p).setPort p ((s.breakSession p).port p).emptied)
  /-- Power-on reset begins. -/
  | resetBegin : c = .resetBegin → Effect c s s.inPowerOnReset
  /-- Power-on reset ends. -/
  | resetEnd (rate1 rate0 ga gb : Level) : s.inReset = true →
      Effect c s { State.powerOn rate1 rate0 ga gb with
        pending := s.pending, freeChoices := s.freeChoices }

theorem working_effect {c : Instr} {s t u : State} (h : working s u = .next t) (hu : Effect c s u) :
    Effect c s t := by
  cases h
  split
  · exact .nothing
  · exact hu

/-- A command that waits for requests: nothing during reset, else its work on what the takings leave. -/
theorem acting_effect {c : Instr} {s t : State} {f : State → State} (hc : takesFirst c)
    (h : acting s f = .next t) (hf : EventWork s.takeDue (f s.takeDue)) : Effect c s t := by
  cases h
  split
  · exact .nothing
  · rename_i hr
    exact .event hc (by simpa using hr) hf

theorem takesFirst_of {c : Instr} (h : requestRow c = none) (hb : ∀ p, c ≠ .lineBreak p)
    (he : ∀ n, c ≠ .leaseExpiry n) (hr : c ≠ .resetBegin) (hp : ∀ a b x y, c ≠ .powerOnResetEnd a b x y) :
    takesFirst c := ⟨h, hb, he, hr, hp⟩

theorem setPort_frame (s : State) (n : StationNo) (r : PortRec) : OnlyPorts s (s.setPort n r) := rfl

theorem endTransmission_frame (s : State) (n : StationNo) : OnlyPorts s (s.endTransmission n) :=
  (setPort_frame s n _).trans (transmitChoice_frame _ n)

/-- A record written at a port, where the event occurs. -/
theorem eventWork_setPort (s : State) (b : Bool) (p : StationNo) (r : PortRec) :
    EventWork s (if b then s else s.setPort p r) ∧ EventWork s (if b then s.setPort p r else s) := by
  cases b
  · exact ⟨.port rfl, .calm (Calm.refl s)⟩
  · exact ⟨.calm (Calm.refl s), .port rfl⟩

/-- Whatever an event answers is one of its effects. -/
theorem event_effect {c : Instr} {s t : State} (hc : requestRow c = none) (h : exec c s = .next t) :
    Effect c s t := by
  have first := fun hb he hr hp => takesFirst_of (c := c) hc hb he hr hp
  cases c with
  | frameComplete p data =>
    simp only [exec, execFrameComplete] at h
    refine acting_effect (first nofun nofun nofun nofun) h ?_
    exact (eventWork_setPort _ _ p _).2
  | frameEndEarly p data marker stop =>
    simp only [exec, execFrameEndEarly] at h
    refine acting_effect (first nofun nofun nofun nofun) h ?_
    exact (eventWork_setPort _ _ p _).2
  | characterReceived p data marker stop =>
    simp only [exec, execCharacterReceived] at h
    refine acting_effect (first nofun nofun nofun nofun) h ?_
    exact (eventWork_setPort _ _ p _).1
  | lineBreak p =>
    simp only [exec, execLineBreak] at h
    refine working_effect h ?_
    split
    · exact .nothing
    · exact .lineBreak p
  | breakEnd p =>
    simp only [exec, execBreakEnd] at h
    refine acting_effect (first nofun nofun nofun nofun) h ?_
    split
    · exact .port (setPort_frame _ p _)
    · exact .calm (Calm.refl _)
  | transmitEnd p =>
    simp only [exec, execTransmitEnd] at h
    refine acting_effect (first nofun nofun nofun nofun) h ?_
    split
    · exact .calm (Calm.refl _)
    · exact .port (endTransmission_frame _ p)
  | tick =>
    simp only [exec, execTick] at h
    exact acting_effect (first nofun nofun nofun nofun) h .tick
  | firing =>
    simp only [exec, execFiring] at h
    refine acting_effect (first nofun nofun nofun nofun) h ?_
    split
    · exact .calm (calm_fireDue _)
    · exact .calm (Calm.refl _)
  | gapCompletion k =>
    simp only [exec, execGapCompletion] at h
    refine acting_effect (first nofun nofun nofun nofun) h ?_
    split
    · exact .calm (calm_completeGap _ k)
    · exact .calm (Calm.refl _)
  | markRisingEdge =>
    simp only [exec, execMarkRisingEdge] at h
    exact acting_effect (first nofun nofun nofun nofun) h .markEdge
  | armTimerExpiry =>
    simp only [exec, execArmTimerExpiry] at h
    exact acting_effect (first nofun nofun nofun nofun) h .armExpiry
  | leaseBoundary =>
    simp only [exec, execLeaseBoundary] at h
    exact working_effect h (.boundary rfl)
  | leaseExpiry n =>
    simp only [exec, execLeaseExpiry] at h
    exact working_effect h (.expiry n)
  | waitExpiry =>
    simp only [exec, execWaitExpiry] at h
    exact acting_effect (first nofun nofun nofun nofun) h (.calm (calm_expireWaits _))
  | guardActivation i =>
    simp only [exec, execGuardActivation] at h
    refine acting_effect (first nofun nofun nofun nofun) h ?_
    split
    · exact .calm (Calm.refl _)
    · exact .calm (calm_activate _ i)
  | guardDeactivation i =>
    simp only [exec, execGuardDeactivation] at h
    exact acting_effect (first nofun nofun nofun nofun) h (.calm (calm_setGuard _ i false))
  | captureEdge i level =>
    simp only [exec, execCaptureEdge] at h
    exact acting_effect (first nofun nofun nofun nofun) h (.calm (calm_sample _ i level))
  | filterClose i level =>
    simp only [exec, execFilterClose] at h
    refine acting_effect (first nofun nofun nofun nofun) h ?_
    split
    · exact .calm (calm_sample _ i level)
    · exact .calm (Calm.refl _)
  | resetBegin =>
    simp only [exec, execResetBegin] at h
    cases h; exact .resetBegin rfl
  | powerOnResetEnd rate1 rate0 ga gb =>
    simp only [exec, execPowerOnResetEnd] at h
    cases h
    split
    · rename_i hr; exact .resetEnd rate1 rate0 ga gb hr
    · exact .nothing
  | _ => cases hc

/-- Whatever a command answers is one of its effects. -/
theorem exec_effect {c : Instr} {s t : State} (h : exec c s = .next t) : Effect c s t := by
  cases hc : requestRow c with
  | some x =>
    rw [exec_requestRow hc] at h
    cases h
    exact .taking hc
  | none => exact event_effect hc h

/-! ### What every taking keeps -/

/-- A predicate that the opening of a request, the expiry of a lease and each owner keep. -/
structure KeptByTakings (P : State → Prop) : Prop where
  leases : ∀ {s t}, OnlyLeases s t → P s → P t
  lapse : ∀ s n, P s → P (s.lapse n)
  owner : ∀ {c p row f s}, requestRow c = some (p, row) → row f = true → s.commonRefusal p f = none →
    P s → P (rowOwner c p f s).state

section Keeping

variable {P : State → Prop} (k : KeptByTakings P)
include k

theorem KeptByTakings.ports {s t : State} (h : OnlyPorts s t) (hs : P s) : P t := k.leases h.leases hs

theorem KeptByTakings.serve {p : StationNo} {row : RequestFrame → Bool}
    {owner : StationNo → RequestFrame → State → OwnerReply}
    (ho : ∀ f u, row f = true → u.commonRefusal p f = none → P u → P (owner p f u).state)
    {s : State} (hs : P s) : P (s.serve p row owner) := by
  rcases serve_cases s p row owner with h | ⟨f, u, hrow, hu, hc, h⟩
  · exact k.leases h hs
  · exact k.ports h (ho f u hrow hc (k.leases hu hs))

theorem KeptByTakings.take {p : StationNo} {row : RequestFrame → Bool}
    {owner : StationNo → RequestFrame → State → OwnerReply}
    (ho : ∀ f u, row f = true → u.commonRefusal p f = none → P u → P (owner p f u).state)
    {s : State} (hs : P s) : P (s.take p row owner) := by
  rcases take_eq_lapse_or_serve s p row owner with h | h <;> rw [h]
  · exact k.lapse s p hs
  · exact k.serve ho hs

/-- A request row keeps it. -/
theorem KeptByTakings.takeRow {c : Instr} {p : StationNo} {row : RequestFrame → Bool}
    (hc : requestRow c = some (p, row)) {s : State} (hs : P s) : P (s.take p row (rowOwner c)) :=
  k.take (fun _ _ hrow hf hu => k.owner hc hrow hf hu) hs

theorem KeptByTakings.requestOwner (p : StationNo) (f : RequestFrame) (u : State)
    (hf : u.commonRefusal p f = none) (hu : P u) : P (requestOwner p f u).state := by
  obtain ⟨c, row, hc, hrow, ho⟩ := requestOwner_eq_rowOwner p f
  rw [ho]
  exact k.owner hc hrow hf hu

theorem KeptByTakings.takeDue {s : State} (hs : P s) : P s.takeDue := by
  have h : ∀ u p, P u → P (u.takeHead p) := fun u p hu => k.take (fun f v _ => k.requestOwner p f v) hu
  unfold State.takeDue
  generalize List.finRange 4 = l
  induction l generalizing s with
  | nil => exact hs
  | cons p l ih => exact ih (h _ p (h _ p hs))

theorem KeptByTakings.serveDue {s : State} (hs : P s) : P s.serveDue := by
  have h : ∀ u p, P u → P (u.serveHead p) := fun u p hu => k.serve (fun f v _ => k.requestOwner p f v) hu
  unfold State.serveDue
  generalize List.finRange 4 = l
  induction l generalizing s with
  | nil => exact hs
  | cons p l ih => exact ih (h _ p (h _ p hs))

end Keeping

/-! ### Which command may change what -/

theorem steady_advance (s : State) : Steady s s.advance := steady_setTb s _ rfl rfl

theorem steady_tick (s : State) : Steady s s.tick := by
  unfold State.tick; split
  · exact (calm_settle s).toSteady.trans (steady_advance _)
  · exact Steady.refl s

theorem steady_markEdge (s : State) : Steady s s.markEdge := by
  unfold State.markEdge; split
  · refine Steady.trans ?_ (calm_appendNotices _ _ _).toSteady
    exact steady_setTb s _ rfl rfl
  · exact Steady.refl s

theorem EventWork.steady {s t : State} (h : EventWork s t) : Steady s t := by
  cases h with
  | calm h => exact h.toSteady
  | port h => exact h.steady
  | tick => exact (steady_expireOwed s).trans (steady_tick _)
  | markEdge => exact steady_markEdge s
  | armExpiry => exact steady_armExpiry s

theorem steady_breakSession (s : State) (p : StationNo) : Steady s (s.breakSession p) := by
  unfold State.breakSession
  split
  · exact (steady_teardown s p false).trans (portTeardown_frame _ p false).steady
  · exact steady_setStation s p _ rfl
  · exact Steady.refl s

theorem steady_leaseUnitEnds (s : State) : Steady s s.leaseUnitEnds :=
  { Steady.refl s with
    pending := rfl
    counter := fun n => by simp [State.leaseUnitEnds, State.station] }

@[simp] theorem leaseUnitEnds_port (s : State) (n : StationNo) : s.leaseUnitEnds.port n = s.port n := rfl

theorem steady_armUnitEnds (s : State) : Steady s s.armUnitEnds := steady_setTb s _ rfl rfl

/-- A request row changes what its owner may. -/
theorem within_take {c : Instr} {p : StationNo} {row : RequestFrame → Bool}
    (hc : requestRow c = some (p, row)) (s : State) : Within c s (s.take p row (rowOwner c)) := by
  rcases take_eq_lapse_or_serve s p row (rowOwner c) with h | h <;> rw [h]
  · exact (steady_lapse s p).within c
  · rcases serve_cases s p row (rowOwner c) with h | ⟨f, u, -, hu, -, h⟩
    · exact h.steady.within c
    · exact hu.within ((within_rowOwner p f u hc).steady h.steady)

/-- No taking touches the queue of commands. -/
theorem pending_keptByTakings (l : List Instr) : KeptByTakings (fun s => s.pending = l) where
  leases h hs := h.steady.pending.trans hs
  lapse s n hs := (steady_lapse s n).pending.trans hs
  owner hc _ _ hs := (within_rowOwner _ _ _ hc).pending.trans hs

@[simp] theorem takeDue_pending (s : State) : s.takeDue.pending = s.pending :=
  (pending_keptByTakings _).takeDue rfl

/-- A lease boundary does steady work round the requests that it serves. -/
theorem meetBoundary_cases (s : State) :
    ∃ u, Steady s u ∧ u = s.expireOwed.leaseUnitEnds ∧ Steady u.serveDue s.meetBoundary := by
  refine ⟨_, (steady_expireOwed s).trans (steady_leaseUnitEnds _), rfl, ?_⟩
  unfold State.meetBoundary
  dsimp only
  split
  · exact steady_armUnitEnds _
  · exact Steady.refl _

/-- No command touches the queue of commands. -/
theorem Effect.pending {c : Instr} {s t : State} (h : Effect c s t) : t.pending = s.pending := by
  cases h with
  | nothing => rfl
  | taking hc => exact (within_take hc s).pending
  | event _ _ hw => rw [hw.steady.pending, takeDue_pending]
  | boundary =>
    obtain ⟨u, hu, -, hb⟩ := meetBoundary_cases s
    exact hb.pending.trans ((pending_keptByTakings _).serveDue hu.pending)
  | expiry n => exact (steady_lapse s n).pending
  | lineBreak p => exact (steady_breakSession s p).pending
  | resetBegin => rfl
  | resetEnd => rfl

/-! ### No expiry makes a request due -/

theorem draining_setStation (s : State) (n : StationNo) (r : StationRec) :
    Draining s (s.setStation n r) := { Draining.refl s with settled := fun _ h => h }

theorem draining_teardown (s : State) (n : StationNo) (lapsed : Bool) :
    Draining s (s.teardown n lapsed) := by
  have h2 : ∀ u : State, Draining u (u.orderTeardown n) := fun u =>
    (calm_removeOrders u _).toDraining.trans (draining_setStation _ n _)
  have h3 : ∀ u : State, Draining u (u.disarm n) := fun u => by
    unfold State.disarm; split
    · exact { Draining.refl u with settled := fun _ h => h }
    · exact Draining.refl u
  exact ((((draining_setStation s n _).trans (h2 _)).trans (calm_claimTeardown _ n).toDraining).trans
    (calm_captureTeardown _ n).toDraining).trans (h3 _)

theorem draining_lapse (s : State) (n : StationNo) : Draining s (s.lapse n) := by
  unfold State.lapse; split
  · refine (draining_teardown s n true).trans ⟨fun m hm => ?_, fun _ h => h⟩
    rw [State.portTeardown, State.setPort_port]
    split
    · exact .inl rfl
    · exact hm
  · exact Draining.refl s

theorem draining_armExpiry (s : State) : Draining s s.armExpiry := by
  have h : ∀ b : Timebase, Draining s { s with tb := b } := fun b =>
    { Draining.refl s with settled := fun _ h => h }
  unfold State.armExpiry
  split
  · dsimp only
    split
    · exact Draining.trans (h _) (calm_appendNotice _ _ _).toDraining
    · exact h _
  · exact Draining.refl s

theorem draining_expireOwed (s : State) : Draining s s.expireOwed :=
  ((draining_armExpiry s).trans (calm_expireWaits _).toDraining).trans
    (foldl_frame Draining.refl Draining.trans draining_lapse _ _)

/-- The expiries owed leave a part at work at work. -/
theorem expireOwed_atWork {s : State} (h : s.atWork) : s.expireOwed.atWork :=
  ⟨(steady_expireOwed s).inReset.trans h.1, fun n => (draining_expireOwed s).settled n (h.2 n)⟩

/-- A lease boundary that meets no request does steady work. -/
theorem steady_meetBoundary {s : State} (h : s.settled) : Steady s s.meetBoundary := by
  obtain ⟨u, hu, he, hb⟩ := meetBoundary_cases s
  have hs : u.settled := fun n => by
    rw [he, leaseUnitEnds_port]; exact (draining_expireOwed s).settled n (h n)
  rw [serveDue_of_settled hs] at hb
  exact hu.trans hb

/-- Outside the ends of reset, a command that finds no request due changes what its row may. -/
theorem Effect.within {c : Instr} {s t : State} (h : Effect c s t) (hr : s.inReset = false)
    (hc : c ≠ .resetBegin) (hs : takesFirst c → s.settled) : Within c s t := by
  cases h with
  | nothing => exact (Steady.refl s).within c
  | taking hrow => exact within_take hrow s
  | event hf _ hw =>
    rw [takeDue_of_settled (hs hf)] at hw
    exact hw.steady.within c
  | boundary e =>
    subst e
    exact (steady_meetBoundary (hs (takesFirst_of rfl nofun nofun nofun nofun))).within _
  | expiry n => exact (steady_lapse s n).within c
  | lineBreak p => exact ((steady_breakSession s p).trans (setPort_frame _ p _).steady).within c
  | resetBegin e => exact absurd e hc
  | resetEnd _ _ _ _ e => rw [hr] at e; cases e

/-- Settles O53. -/
theorem whichCommandChangesWhat : Obligations.WhichCommandChangesWhat := by
  intro c s t h
  have he := exec_effect h
  refine ⟨he.pending, fun hr hc hs => ?_⟩
  have w := he.within hr hc hs
  exact ⟨w.rateDivisor, w.exponents, w.rearmed, w.mapped, w.shaped, w.posted, w.bound⟩

end Sys2Proof.Machine
end

section
/-! The laws of sessions, quotas and the timebase, kept by every step: first what each of them reads, then what keeps
them (work that brings no new order and no gap, a new order within a quota, a change of the timebase, a teardown, a
BIND), and so every owner, every event and every step. -/

namespace Sys2Proof.Machine

/-- The laws of sessions (R134), quotas (R59) and the timebase (R6 to R9, R12). -/
abbrev State.runLaws (s : State) : Prop :=
  s.sessionLaw ∧ s.quotaLaw ∧ s.timebaseLaw ∧ s.haltedLaw

/-! ### What the laws read -/

theorem not_running_iff (s : State) : s.running = false ↔ s.tb.state ≠ .running := by
  simp [State.running]

theorem isBound_iff (s : State) (n : StationNo) :
    s.isBound n = true ↔ (s.station n).session = .bound := by simp [State.isBound]

theorem State.haltedLaw.idle {s : State} (h : s.haltedLaw) (hr : s.running = false) : s.idle :=
  ⟨hr, (h hr).1⟩

/-- A station whose every order stood before, in a slot of its own then too, has no more orders than before. -/
theorem orderCount_le {s t : State} {n : StationNo}
    (h : ∀ i o, t.order i = some o → o.station = n → ∃ a, s.order i = some a ∧ a.station = n) :
    t.orderCount n ≤ s.orderCount n := by
  refine (List.subperm_of_subset (nodup_slotsWith t _) fun i hi => ?_).length_le
  obtain ⟨o, ho, hn⟩ := mem_slotsWith.mp hi
  obtain ⟨a, ha, hs⟩ := h i o ho (by simpa using hn)
  exact mem_slotsWith.mpr ⟨a, ha, by simpa using hs⟩

/-- With one new order in slot `j`, it has at most one more. -/
theorem orderCount_le_succ {s t : State} {n : StationNo} {j : SlotNo}
    (h : ∀ i o, t.order i = some o → o.station = n → i = j ∨ ∃ a, s.order i = some a ∧ a.station = n) :
    t.orderCount n ≤ s.orderCount n + 1 := by
  have hs : (t.slotsWith fun o => o.station == n) ⊆ j :: s.slotsWith fun o => o.station == n := by
    intro i hi
    obtain ⟨o, ho, hn⟩ := mem_slotsWith.mp hi
    rcases h i o ho (by simpa using hn) with rfl | ⟨a, ha, hb⟩
    · exact List.mem_cons_self
    · exact List.mem_cons_of_mem _ (mem_slotsWith.mpr ⟨a, ha, by simpa using hb⟩)
  simpa [State.orderCount] using (List.subperm_of_subset (nodup_slotsWith t _) hs).length_le

theorem OrdersFrom.orderCount_le {s t : State} (h : OrdersFrom s t) (n : StationNo) :
    t.orderCount n ≤ s.orderCount n :=
  Machine.orderCount_le fun i o ho hn => by
    obtain ⟨a, ha, e⟩ := h i o ho
    exact ⟨a, ha, e.trans hn⟩

theorem orderCount_eq_zero {s : State} {n : StationNo} (h : ∀ i o, s.order i = some o → o.station ≠ n) :
    s.orderCount n = 0 := by
  rw [State.orderCount, List.length_eq_zero_iff, List.eq_nil_iff_forall_not_mem]
  intro i hi
  obtain ⟨o, ho, hn⟩ := mem_slotsWith.mp hi
  exact h i o ho (by simpa using hn)

theorem stationNo_cases : ∀ n : StationNo, n = 0 ∨ n = 1 ∨ n = 2 ∨ n = 3 := by decide

/-- The sum of the quotas does not grow when none of them does. -/
theorem quotas_le {s t : State} (h : ∀ n, (t.station n).quota.toNat ≤ (s.station n).quota.toNat)
    (hs : (s.station 0).quota.toNat + (s.station 1).quota.toNat + (s.station 2).quota.toNat +
      (s.station 3).quota.toNat ≤ 128) :
    (t.station 0).quota.toNat + (t.station 1).quota.toNat + (t.station 2).quota.toNat +
      (t.station 3).quota.toNat ≤ 128 := by
  have h0 := h 0
  have h1 := h 1
  have h2 := h 2
  have h3 := h 3
  omega

/-! ### What keeps the laws -/

/-- The law of the halted timebase, where the timebase stands and nothing comes that was not there. -/
theorem haltedLaw_of {s t : State} (h : s.haltedLaw) (htb : t.tb = s.tb) (ho : OrdersFrom s t)
    (hg : s.idle → ∀ k, (t.pair k).state.inGap = true → (s.pair k).state.inGap = true) : t.haltedLaw := by
  intro hr
  have hrs : s.running = false := by unfold State.running at hr ⊢; rwa [← htb]
  refine ⟨ho.none (h hrs).1, fun k => ?_⟩
  by_contra hk
  have := hg (h.idle hrs) k (by simpa using hk)
  rw [(h hrs).2 k] at this
  cases this

/-- Nothing but lease timers changes in the sessions, and nothing comes that was not there. -/
theorem runLaws_of {s t : State} (h : s.runLaws) (htb : t.tb = s.tb)
    (hst : ∀ n, t.station n = { s.station n with leaseTimer := (t.station n).leaseTimer })
    (ho : OrdersFrom s t)
    (hg : s.idle → ∀ k, (t.pair k).state.inGap = true → (s.pair k).state.inGap = true) : t.runLaws := by
  obtain ⟨hsession, ⟨hcount, hsum, hquota⟩, htime, hhalted⟩ := h
  have hb : ∀ n, t.isBound n = s.isBound n := fun n => by unfold State.isBound; rw [hst n]
  have hq : ∀ n, (t.station n).quota = (s.station n).quota := fun n => by rw [hst n]
  refine ⟨fun n hn => ?_, ⟨fun n => ?_, ?_, fun n hn => ?_⟩, ?_, haltedLaw_of hhalted htb ho hg⟩
  · rw [hst n]; exact hsession n (by rwa [← hb])
  · rw [hq]; exact (ho.orderCount_le n).trans (hcount n)
  · simpa only [hq] using hsum
  · rw [hq]; exact hquota n (by rwa [← hb])
  · unfold State.timebaseLaw; rwa [htb]

theorem NoNewWork.runLaws {s t : State} (a : NoNewWork s t) (h : s.runLaws) : t.runLaws :=
  runLaws_of h a.tb (fun n => by simp only [State.station, a.stations]) a.orders a.gaps

/-- A change that the laws do not read: they read the timebase, the slots, the pair units, and the station records but
for the lease timers. -/
theorem runLaws_congr {s t : State} (h : s.runLaws) (htb : t.tb = s.tb) (hsl : t.slots = s.slots)
    (hp : t.pairs = s.pairs)
    (hst : ∀ n, t.station n = { s.station n with leaseTimer := (t.station n).leaseTimer }) : t.runLaws := by
  have ho : ∀ i, t.order i = s.order i := fun i => by simp only [State.order, State.slot, hsl]
  have hg : ∀ k, t.pair k = s.pair k := fun k => by simp only [State.pair, hp]
  exact runLaws_of h htb hst (fun i o hi => ⟨o, by rwa [← ho], rfl⟩) fun _ k hk => by rwa [← hg]

theorem OnlyLeases.runLaws {s t : State} (a : OnlyLeases s t) (h : s.runLaws) : t.runLaws := by
  obtain ⟨a1, a2⟩ := a
  exact runLaws_congr h (by rw [a1]) (by rw [a1]) (by rw [a1]) a2

/-- One new order in slot `j`, of a station below its quota, while the timebase is RUNNING. -/
theorem runLaws_newOrder {s t : State} {p : StationNo} {j : SlotNo} (h : s.runLaws)
    (hr : s.running = true) (hq : s.orderCount p < (s.station p).quota.toNat) (htb : t.tb = s.tb)
    (hst : t.stations = s.stations)
    (ho : ∀ i o, t.order i = some o →
      (i = j ∧ o.station = p) ∨ ∃ a, s.order i = some a ∧ a.station = o.station) : t.runLaws := by
  obtain ⟨hsession, ⟨hcount, hsum, hquota⟩, htime, -⟩ := h
  have hs : ∀ n, t.station n = s.station n := fun n => by simp only [State.station, hst]
  have hb : ∀ n, t.isBound n = s.isBound n := fun n => by simp only [State.isBound, hs]
  refine ⟨fun n hn => ?_, ⟨fun n => ?_, by simpa only [hs] using hsum, fun n hn => ?_⟩, ?_, fun ht => ?_⟩
  · rw [hs]; exact hsession n (by rwa [← hb])
  · rw [hs]
    by_cases hn : n = p
    · subst hn
      have := orderCount_le_succ (s := s) (t := t) (n := n) (j := j) fun i o hi hn =>
        (ho i o hi).imp And.left fun ⟨a, ha, e⟩ => ⟨a, ha, e.trans hn⟩
      omega
    · refine (orderCount_le fun i o hi hin => ?_).trans (hcount n)
      rcases ho i o hi with ⟨-, e⟩ | ⟨a, ha, e⟩
      · exact absurd (hin.symm.trans e) hn
      · exact ⟨a, ha, e.trans hin⟩
  · rw [hs]; exact hquota n (by rwa [← hb])
  · unfold State.timebaseLaw; rwa [htb]
  · unfold State.running at ht hr; rw [htb, hr] at ht; cases ht

/-- A change of the timebase within its law; it leaves RUNNING, or stays outside, only where no order and no gap
exists. -/
theorem runLaws_setTb {s : State} (h : s.runLaws) {b : Timebase} (hd : b.d ≤ 10)
    (hh : 16 ≤ b.h ∧ b.h ≤ 30) (ha : b.state ≠ .armed → b.arming = none ∧ b.armTimer = none)
    (hi : b.state ≠ .running → (∀ i, s.order i = none) ∧ ∀ k, (s.pair k).state.inGap = false) :
    ({ s with tb := b } : State).runLaws := by
  obtain ⟨hsession, hquota, -, -⟩ := h
  exact ⟨hsession, hquota, ⟨hd, hh.1, hh.2, ha⟩, fun hr => hi ((not_running_iff _).mp hr)⟩

/-- The same with the exponents as they stand, and the timebase no nearer to a halt. -/
theorem runLaws_setTb_same {s : State} (h : s.runLaws) {b : Timebase} (hd : b.d = s.tb.d)
    (hh : b.h = s.tb.h) (ha : b.state ≠ .armed → b.arming = none ∧ b.armTimer = none)
    (hr : b.state = .running ∨ s.tb.state ≠ .running) : ({ s with tb := b } : State).runLaws := by
  have ⟨_, _, ⟨hd', hl, hu, _⟩, hhalted⟩ := h
  refine runLaws_setTb h (by rwa [hd]) (by rw [hh]; exact ⟨hl, hu⟩) ha fun hb => ?_
  exact hhalted ((not_running_iff s).mpr (hr.resolve_left hb))

/-! ### A teardown -/

/-- The orders that are left where those that satisfy `q` are removed (R57). -/
theorem without_order (s : State) (q : Order → Bool) (i : SlotNo) :
    (s.without q).order i = (s.order i).filter (fun o => !q o) := by
  have h : (s.without q).slot i = (match (s.slot i).order with
      | some o => if q o then ⟨(s.slot i).generation + 1, none⟩ else s.slot i
      | none => s.slot i) := by
    simp only [State.slot, State.without, Fin.getElem_fin, Vector.getElem_map] <;> rfl
  simp only [State.order, h]
  cases ho : (s.slot i).order with
  | none => exact ho
  | some o => cases hq : q o <;> simp [hq, ho, Option.filter]

@[simp] theorem endSession_station (s : State) (n m : StationNo) (lapsed : Bool) :
    (s.endSession n lapsed).station m =
      if m = n then { s.station n with
        session := if lapsed then .lapsed else .unbound
        number := if lapsed then (s.station n).number else none
        leasePeriod := none
        leaseTimer := none }
      else s.station m := by
  rw [State.endSession, State.setStation_station]

/-- The order store's part of a teardown (R81). -/
theorem orderTeardown_eq (s : State) (n : StationNo) :
    s.orderTeardown n = (s.without (fun o => o.station == n)).setStation n { s.station n with quota := 0 } := by
  unfold State.orderTeardown
  dsimp only
  rw [removeOrders_slotsWith]
  rfl

/-- The laws after parts 1 and 2 of a teardown: the station's session has ended, its orders are gone and its quota has
returned (R145, R81). -/
theorem runLaws_orderTeardown {s : State} (h : s.runLaws) (n : StationNo) (lapsed : Bool) :
    ((s.endSession n lapsed).orderTeardown n).runLaws := by
  obtain ⟨hsession, ⟨hcount, hsum, hquota⟩, htime, hhalted⟩ := h
  rw [orderTeardown_eq]
  generalize ht : ((s.endSession n lapsed).without fun o => o.station == n).setStation n
    { (s.endSession n lapsed).station n with quota := 0 } = t
  have hself : (t.station n).session ≠ .bound ∧ (t.station n).quota = 0 := by
    rw [← ht, State.setStation_station_self, endSession_station, if_pos rfl]
    cases lapsed <;> simp
  have hother : ∀ m, m ≠ n → t.station m = s.station m := fun m hm => by
    rw [← ht, State.setStation_station_ne _ _ _ hm]
    exact (endSession_station s n m lapsed).trans (if_neg hm)
  have horder : ∀ i o, t.order i = some o → s.order i = some o ∧ o.station ≠ n := fun i o hi => by
    rw [← ht, State.setStation_order, without_order, Option.filter_eq_some_iff] at hi
    exact ⟨hi.1, by simpa using hi.2⟩
  have hb : ∀ m, t.isBound m = true → m ≠ n := fun m hm e =>
    hself.1 (by rw [← e]; exact (isBound_iff t m).mp hm)
  refine ⟨fun m hm => ?_, ⟨fun m => ?_, quotas_le (fun m => ?_) hsum, fun m hm => ?_⟩, ?_, ?_⟩
  · have hne := hb m hm
    rw [hother m hne]
    exact hsession m (by simpa only [State.isBound, hother m hne] using hm)
  · by_cases hm : m = n
    · subst hm; rw [orderCount_eq_zero fun i o ho => (horder i o ho).2]; exact Nat.zero_le _
    · rw [hother m hm]
      exact (orderCount_le fun i o ho hn => ⟨o, (horder i o ho).1, hn⟩).trans (hcount m)
  · by_cases hm : m = n
    · subst hm; rw [hself.2]; exact Nat.zero_le _
    · rw [hother m hm]
  · by_cases e : m = n
    · subst e; exact hself.2
    · rw [hother m e]; exact hquota m (by simpa only [State.isBound, hother m e] using hm)
  · subst ht; exact htime
  · exact haltedLaw_of hhalted (by subst ht; rfl) (fun i o ho => ⟨o, (horder i o ho).1, rfl⟩)
      fun _ k hk => by subst ht; exact hk

theorem runLaws_disarm {s : State} (h : s.runLaws) (n : StationNo) : (s.disarm n).runLaws := by
  unfold State.disarm
  split
  · have ⟨_, _, ⟨_, _, _, harm⟩, hhalted⟩ := h
    exact runLaws_setTb_same h rfl rfl (fun hs => ⟨rfl, (harm hs).2⟩) (em (s.tb.state = .running))
  · exact h

theorem runLaws_teardown {s : State} (h : s.runLaws) (n : StationNo) (lapsed : Bool) :
    (s.teardown n lapsed).runLaws := by
  have h2 := runLaws_orderTeardown h n lapsed
  have h3 := (calm_claimTeardown _ n).toNoNewWork.runLaws h2
  exact runLaws_disarm ((calm_captureTeardown _ n).toNoNewWork.runLaws h3) n

theorem runLaws_lapse {s : State} (n : StationNo) (h : s.runLaws) : (s.lapse n).runLaws := by
  unfold State.lapse; split
  · exact (portTeardown_frame _ n false).leases.runLaws (runLaws_teardown h n true)
  · exact h

/-! ### The owners -/

/-- A session number is never 0 (R134). -/
theorem stepForward_ne_zero (x : Byte) : stepForward x ≠ 0 := by
  unfold stepForward
  split
  · decide
  · intro h; apply_assumption; bv_omega

/-- The quota granted is not above what is unreserved (R59). -/
theorem quotaGrant_le (s : State) (asked : Byte) : (s.quotaGrant asked).toNat ≤ s.unreserved := by
  have h : (s.quotaGrant asked).toNat = min asked.toNat s.unreserved % 256 := by
    simp [State.quotaGrant, byteOf]
  have := Nat.mod_le (min asked.toNat s.unreserved) 256
  omega

/-- A session opened for a station that has none (R138). -/
theorem runLaws_bindStation {s : State} (h : s.runLaws) {p : StationNo} (hp : s.isBound p = false)
    (asked : Byte) (lease : Half) : (s.bindStation p (s.quotaGrant asked) lease).runLaws := by
  obtain ⟨hsession, ⟨hcount, hsum, hquota⟩, htime, hhalted⟩ := h
  have hg := quotaGrant_le s asked
  generalize s.quotaGrant asked = grant at hg
  generalize ht : s.bindStation p grant lease = t
  have hself : t.station p = ⟨.bound, some (stepForward (s.station p).counter),
      stepForward (s.station p).counter, some lease, some lease, grant⟩ := by
    rw [← ht, State.bindStation]; dsimp only
    rw [State.setPort_station, State.setStation_station_self]
  have hother : ∀ m, m ≠ p → t.station m = s.station m := fun m hm => by
    rw [← ht, State.bindStation]; dsimp only
    rw [State.setPort_station, State.setStation_station_ne _ _ _ hm]
  have horder : ∀ i, t.order i = s.order i := fun i => by subst ht; rfl
  have hof : OrdersFrom s t := fun i o hi => ⟨o, by rwa [← horder], rfl⟩
  have hsum' : ∀ m, (t.station m).quota.toNat = if m = p then grant.toNat else (s.station m).quota.toNat :=
    fun m => by
      split
      · rename_i e; rw [e, hself]
      · rename_i e; rw [hother m e]
  have hzero : (s.station p).quota = 0 := hquota p hp
  refine ⟨fun m hm => ?_, ⟨fun m => ?_, ?_, fun m hm => ?_⟩, ?_, ?_⟩
  · by_cases e : m = p
    · subst e; rw [hself]; exact ⟨rfl, stepForward_ne_zero _⟩
    · rw [hother m e]; exact hsession m (by simpa only [State.isBound, hother m e] using hm)
  · have := (hof.orderCount_le m).trans (hcount m)
    by_cases e : m = p
    · subst e; rw [hzero] at this; exact this.trans (Nat.zero_le _)
    · rwa [hother m e]
  · simp only [hsum']
    unfold State.unreserved Config.orderSlots at hg
    have hz : (s.station p).quota.toNat = 0 := by rw [hzero]; rfl
    rcases stationNo_cases p with rfl | rfl | rfl | rfl <;> simp <;> omega
  · by_cases e : m = p
    · subst e; simp [State.isBound, hself] at hm
    · rw [hother m e]; exact hquota m (by simpa only [State.isBound, hother m e] using hm)
  · subst ht; exact htime
  · exact haltedLaw_of hhalted (by subst ht; rfl) hof fun _ k hk => by subst ht; exact hk

/-- A BIND that passes the common checks finds its station without a session (R135). -/
theorem not_bound_of_bind {s : State} {p : StationNo} {f : RequestFrame} (hrow : rowOf .bind f = true)
    (h : s.commonRefusal p f = none) : s.isBound p = false := by
  have hr : f.request = some .bind := by simpa [rowOf] using hrow
  simp only [State.commonRefusal, hr, State.sessionRefusal] at h
  split at h
  · split at h
    · cases h
    · simp_all
  · cases h

section Owners

variable {s : State} (h : s.runLaws) (p : StationNo) (f : RequestFrame)
include h

theorem runLaws_bindOwner (hp : s.isBound p = false) : (bindOwner p f s).state.runLaws := by
  unfold bindOwner
  split
  · exact h
  · split
    · exact h
    · exact runLaws_bindStation h hp _ _

theorem runLaws_portStatusOwner : (portStatusOwner p f s).state.runLaws := by
  unfold portStatusOwner
  split
  · dsimp only
    split
    · exact (setPort_frame s p _).leases.runLaws h
    · exact h
  · exact h

theorem runLaws_timeStartImmediateOwner : (timeStartImmediateOwner p f s).state.runLaws := by
  unfold timeStartImmediateOwner
  split
  · exact h
  · rename_i hn
    obtain ⟨hs, hd, hl, hu⟩ := timeStartRefusal_eq_none hn
    have ⟨_, _, ⟨_, _, _, harm⟩, _⟩ := h
    refine (calm_appendNotices _ _ _).toNoNewWork.runLaws ?_
    exact runLaws_setTb h hd ⟨hl, hu⟩ (fun _ => harm (by rw [hs]; decide)) fun hr => absurd rfl hr

theorem runLaws_timeStartOnMarkOwner : (timeStartOnMarkOwner p f s).state.runLaws := by
  unfold timeStartOnMarkOwner
  split
  · exact h
  · rename_i hn
    obtain ⟨hs, hd, hl, hu⟩ := timeStartRefusal_eq_none hn
    have ⟨_, _, _, hhalted⟩ := h
    exact runLaws_setTb h hd ⟨hl, hu⟩ (fun ha => absurd rfl ha)
      fun _ => hhalted ((not_running_iff s).mpr (by rw [hs]; decide))

/-- A halt where no order and no gap exists (R12). -/
theorem runLaws_halt (ho : ∀ i, s.order i = none) (hg : ∀ k, (s.pair k).state.inGap = false) :
    s.halt.runLaws := by
  have ⟨_, _, ⟨hd, hl, hu, harm⟩, _⟩ := h
  unfold State.halt
  split
  · rename_i hs
    refine (calm_stopSampling _).toNoNewWork.runLaws ?_
    exact runLaws_setTb h hd ⟨hl, hu⟩ (fun _ => harm (by rw [hs]; decide)) fun _ => ⟨ho, hg⟩
  · exact runLaws_setTb h hd ⟨hl, hu⟩ (fun _ => ⟨rfl, rfl⟩) fun _ => ⟨ho, hg⟩
  · exact h

omit h in
/-- Some order exists, or none does (R12). -/
theorem anyOrder_eq_false (s : State) : s.anyOrder = false ↔ ∀ i, s.order i = none := by
  simp [State.anyOrder]

omit h in
/-- Some gap runs, or none does (R12). -/
theorem anyGap_eq_false (s : State) : s.anyGap = false ↔ ∀ k, (s.pair k).state.inGap = false := by
  simp [State.anyGap]

theorem runLaws_timeStopOwner : (timeStopOwner p f s).state.runLaws := by
  unfold timeStopOwner
  split
  · exact h
  · rename_i hn
    simp only [Bool.not_eq_true, Bool.or_eq_false_iff, anyOrder_eq_false, anyGap_eq_false] at hn
    exact runLaws_halt h hn.1 hn.2

theorem runLaws_claimOwner : (claimOwner p f s).state.runLaws := by
  have hc : Calm s { s with claimCounter := s.nextClaimId } := OnlyLists.calm rfl
  unfold claimOwner
  split
  · exact h
  · split
    · exact (hc.trans (calm_grant _ _)).toNoNewWork.runLaws h
    · split
      · exact h
      · split
        · exact h
        · exact runLaws_congr h rfl rfl rfl fun _ => rfl

theorem runLaws_shapeOwner : (shapeOwner p f s).state.runLaws := by
  have hshape : ∀ m x, NoNewWork s (s.shape m x) := fun m x =>
    (foldl_frame NoNewWork.refl NoNewWork.trans (f := State.shapeLine x)
      (fun u l => noNewWork_setLine u l _) _ s).trans (Calm.foldl calm_toSafe _ _).toNoNewWork
  unfold shapeOwner
  split
  · exact h
  · split
    · exact h
    · split
      · exact h
      · split
        · exact h
        · exact (hshape _ _).runLaws h

theorem runLaws_guardMapOwner : (guardMapOwner p f s).state.runLaws := by
  unfold guardMapOwner
  split
  · exact h
  · rename_i g m _
    have hm := (noNewWork_setGroup s g { s.group g with map := m }).runLaws h
    unfold State.remap
    dsimp only
    split
    · split
      · exact ((calm_tripGroup _ g).trans (calm_tripNotices _ g _)).toNoNewWork.runLaws hm
      · exact hm
    · exact hm

theorem runLaws_rearmOwner : (rearmOwner p f s).state.runLaws := by
  unfold rearmOwner
  split
  · exact h
  · rename_i g _
    have hm := (noNewWork_setGroup s g { s.group g with state := .normal }).runLaws h
    split
    · exact h
    · split
      · exact h
      · split
        · exact h
        · exact (calm_appendNotices _ _ _).toNoNewWork.runLaws hm

omit h in
/-- A POST that passes its checks finds the timebase RUNNING and its station below its quota (R64, R67). -/
theorem postChecks_ok {p : StationNo} {f : RequestFrame} {x : PostForm × OrderBody × Option CaptureTrigger}
    (hc : postChecks p f s = .ok x) :
    s.running = true ∧ s.orderCount p < (s.station p).quota.toNat := by
  unfold postChecks at hc
  split at hc
  · cases hc
  · rename_i hr
    refine ⟨by simpa using hr, ?_⟩
    repeat' split at hc
    all_goals cases hc
    omega

variable (hr : s.running = true) (hq : s.orderCount p < (s.station p).quota.toNat) (x : PostForm)
  (b : OrderBody)
include hr hq

/-- The order of a POST written into a slot, after work that brings no order (R67, R70). -/
theorem runLaws_posted {u : State} (hu : NoNewWork s u) (i : SlotNo) {o : Order} (ho : o.station = p) :
    (u.nextPost.setOrder i o).runLaws := by
  refine runLaws_newOrder (j := i) h hr hq hu.tb hu.stations fun k a ha => ?_
  rw [State.setOrder, setSlot_order] at ha
  split at ha
  · rename_i e; cases ha; exact .inl ⟨e, ho⟩
  · exact .inr (hu.orders k a ha)

theorem runLaws_postFuture (due : Time) : (postFuture p f s x b due).state.runLaws := by
  unfold postFuture
  split
  · exact h
  · exact runLaws_congr (runLaws_posted h p hr hq (NoNewWork.refl s) _ rfl) rfl rfl rfl fun _ => rfl

theorem runLaws_postLateFire : (postLateFire p f s x b).state.runLaws := by
  unfold postLateFire
  split
  · exact h
  · refine (calm_fireEdge (order_setOrder _ _ _) _ rfl).toNoNewWork.runLaws ?_
    exact runLaws_posted h p hr hq (calm_fireDue s).toNoNewWork _ rfl

theorem runLaws_postArmed (tr : CaptureTrigger) : (postArmed p f s x b tr).state.runLaws := by
  unfold postArmed
  split
  · exact h
  · split
    · exact h
    · exact runLaws_congr (runLaws_posted h p hr hq (NoNewWork.refl s) _ rfl) rfl rfl rfl fun _ => rfl

omit hr hq in
theorem runLaws_postOwner : (postOwner p f s).state.runLaws := by
  unfold postOwner
  split
  · exact h
  · rename_i hc
    obtain ⟨hr, hq⟩ := postChecks_ok hc
    exact runLaws_postArmed h p f hr hq _ _ _
  · rename_i hc
    obtain ⟨hr, hq⟩ := postChecks_ok hc
    split
    · exact runLaws_postFuture h p f hr hq _ _ _
    · exact h
    · exact h
    · exact runLaws_postLateFire h p f hr hq _ _

end Owners

/-- Every taking of a request keeps the laws. -/
theorem runLaws_keptByTakings : KeptByTakings State.runLaws where
  leases a h := a.runLaws h
  lapse _ n h := runLaws_lapse n h
  owner {c p row f s} hc hrow hf h := by
    cases c with
    | bind => cases hc; exact runLaws_bindOwner h p f (not_bound_of_bind hrow hf)
    | unbind => exact runLaws_teardown h p false
    | portStatus => exact runLaws_portStatusOwner h p f
    | timeStartImmediate => exact runLaws_timeStartImmediateOwner h p f
    | timeStartOnMark => exact runLaws_timeStartOnMarkOwner h p f
    | timeStop => exact runLaws_timeStopOwner h p f
    | claim => exact runLaws_claimOwner h p f
    | release => exact (calm_releaseOwner p f s).runLaws h
    | shape => exact runLaws_shapeOwner h p f
    | lineRead => exact (calm_lineReadOwner p f s).runLaws h
    | pairBind => exact (calm_pairBindOwner p f s).runLaws h
    | pairUnbind => exact (calm_pairUnbindOwner p f s).runLaws h
    | post => exact runLaws_postOwner h p f
    | cancelNow => exact (calm_cancelNowOwner p f s).runLaws h
    | cancelAtEnd => exact (calm_cancelAtEndOwner p f s).runLaws h
    | revise => exact (calm_reviseOwner p f s).runLaws h
    | flush => exact (calm_flushOwner p f s).runLaws h
    | orderRead => exact (calm_orderReadOwner p f s).runLaws h
    | guardMap => exact runLaws_guardMapOwner h p f
    | rearm => exact runLaws_rearmOwner h p f
    | subscribe => exact (calm_subscribeOwner p f s).runLaws h
    | unsubscribe => exact (calm_unsubscribeOwner p f s).runLaws h
    | readCaptures => exact (calm_readCapturesOwner p f s).runLaws h
    | _ => exact h

/-! ### The events -/

section Events

variable {s : State} (h : s.runLaws)
include h

theorem runLaws_advance : s.advance.runLaws := by
  have ⟨_, _, ⟨_, _, _, harm⟩, _⟩ := h
  exact runLaws_setTb_same h rfl rfl harm (em (s.tb.state = .running))

theorem runLaws_tick : s.tick.runLaws := by
  unfold State.tick; split
  · exact runLaws_advance ((calm_settle s).toNoNewWork.runLaws h)
  · exact h

theorem runLaws_markEdge : s.markEdge.runLaws := by
  unfold State.markEdge; split
  · refine (calm_appendNotices _ _ _).toNoNewWork.runLaws ?_
    exact runLaws_setTb_same h rfl rfl (fun _ => ⟨rfl, rfl⟩) (.inl rfl)
  · exact h

theorem runLaws_armExpiry : s.armExpiry.runLaws := by
  unfold State.armExpiry
  split
  · rename_i ha
    have ht : ∀ b : Timebase, b = { s.tb with state := .halted, armTimer := none, arming := none } →
        ({ s with tb := b } : State).runLaws := fun b hb => by
      subst hb
      exact runLaws_setTb_same h rfl rfl (fun _ => ⟨rfl, rfl⟩) (.inr (by rw [ha.1]; decide))
    dsimp only
    split
    · exact (calm_appendNotice _ _ _).toNoNewWork.runLaws (ht _ rfl)
    · exact ht _ rfl
  · exact h

theorem runLaws_expireOwed : s.expireOwed.runLaws := by
  have h2 := (calm_expireWaits _).toNoNewWork.runLaws (runLaws_armExpiry h)
  unfold State.expireOwed
  generalize s.armExpiry.expireWaits = u at h2
  generalize List.finRange 4 = l
  induction l generalizing u with
  | nil => exact h2
  | cons n l ih => exact ih _ (runLaws_lapse n h2)

theorem runLaws_eventWork {t : State} (w : EventWork s t) : t.runLaws := by
  cases w with
  | calm a => exact a.toNoNewWork.runLaws h
  | port a => exact a.leases.runLaws h
  | tick => exact runLaws_tick (runLaws_expireOwed h)
  | markEdge => exact runLaws_markEdge h
  | armExpiry => exact runLaws_armExpiry h

theorem runLaws_leaseUnitEnds : s.leaseUnitEnds.runLaws :=
  runLaws_congr h rfl rfl rfl fun n => by simp [State.leaseUnitEnds, State.station]

theorem runLaws_armUnitEnds : s.armUnitEnds.runLaws := by
  have ⟨_, _, ⟨_, _, _, harm⟩, _⟩ := h
  exact runLaws_setTb_same h rfl rfl (fun hs => ⟨(harm hs).1, by simp [(harm hs).2]⟩)
    (em (s.tb.state = .running))

theorem runLaws_meetBoundary : s.meetBoundary.runLaws := by
  have h3 := runLaws_keptByTakings.serveDue (runLaws_leaseUnitEnds (runLaws_expireOwed h))
  unfold State.meetBoundary
  dsimp only
  split
  · exact runLaws_armUnitEnds h3
  · exact h3

/-- A LAPSED station becomes UNBOUND; its orders went with its lease (R134). -/
theorem runLaws_endSession {p : StationNo} (hp : (s.station p).session = .lapsed) :
    (s.endSession p false).runLaws := by
  obtain ⟨hsession, ⟨hcount, hsum, hquota⟩, htime, hhalted⟩ := h
  have hpb : s.isBound p = false := by simp [State.isBound, hp]
  have hb : ∀ m, (s.endSession p false).isBound m = s.isBound m := fun m => by
    simp only [State.isBound, endSession_station]
    split
    · rename_i e; rw [e, hp]; rfl
    · rfl
  have hq : ∀ m, ((s.endSession p false).station m).quota = (s.station m).quota := fun m => by
    rw [endSession_station]; split
    · rename_i e; rw [e]
    · rfl
  refine ⟨fun m hm => ?_, ⟨fun m => ?_, by simpa only [hq] using hsum, fun m hm => ?_⟩, htime, hhalted⟩
  · rw [hb] at hm
    have hne : m ≠ p := fun e => by rw [e, hpb] at hm; cases hm
    rw [endSession_station, if_neg hne]
    exact hsession m hm
  · rw [hq]; exact hcount m
  · rw [hq]; exact hquota m (by rwa [← hb])

theorem runLaws_breakSession (p : StationNo) : (s.breakSession p).runLaws := by
  unfold State.breakSession
  split
  · exact (portTeardown_frame _ p false).leases.runLaws (runLaws_teardown h p false)
  · rename_i hp; exact runLaws_endSession h hp
  · exact h

end Events

/-- The laws at the end of power-on reset, whatever the straps and the guards. -/
theorem powerOn_runLaws (a b x y : Level) : (State.powerOn a b x y).runLaws := by
  have hst : ∀ n, (State.powerOn a b x y).station n = StationRec.powerOn := fun n => by
    simp [State.powerOn, State.station]
  have hor : ∀ i, (State.powerOn a b x y).order i = none := fun i => by
    simp [State.powerOn, State.order, State.slot]
  have hp : ∀ k, (State.powerOn a b x y).pair k = PairUnit.powerOn := fun k => by
    simp [State.powerOn, State.pair]
  have hb : ∀ n, (State.powerOn a b x y).isBound n = false := fun n => by
    simp [State.isBound, hst, StationRec.powerOn]
  refine ⟨fun n hn => ?_, ⟨fun n => ?_, ?_, fun n _ => ?_⟩, ?_, fun _ => ⟨hor, fun k => ?_⟩⟩
  · rw [hb] at hn; cases hn
  · rw [orderCount_eq_zero fun i o ho => by rw [hor] at ho; cases ho]; exact Nat.zero_le _
  · simp only [hst]; decide
  · rw [hst]; rfl
  · have htb : (State.powerOn a b x y).tb = Timebase.powerOn := rfl
    unfold State.timebaseLaw
    rw [htb]
    decide
  · rw [hp]; rfl

/-- Every command keeps the laws. -/
theorem Effect.runLaws {c : Instr} {s t : State} (e : Effect c s t) (h : s.runLaws) : t.runLaws := by
  cases e with
  | nothing => exact h
  | taking hc => exact runLaws_keptByTakings.takeRow hc h
  | event _ _ w => exact runLaws_eventWork (runLaws_keptByTakings.takeDue h) w
  | boundary => exact runLaws_meetBoundary h
  | expiry n => exact runLaws_lapse n h
  | lineBreak p => exact (setPort_frame _ p _).leases.runLaws (runLaws_breakSession h p)
  | resetBegin => exact runLaws_congr (powerOn_runLaws .low .low .high .high) rfl rfl rfl fun _ => rfl
  | resetEnd a b x y => exact runLaws_congr (powerOn_runLaws a b x y) rfl rfl rfl fun _ => rfl

/-- A character time on the transmit lines touches the ports alone. -/
theorem characterTime_frame (s : State) : OnlyPorts s s.characterTime := rfl

/-- What one step can do: a command's effect on the state with the rest of the queue, or, on an empty queue, the work
between commands. -/
theorem step_cases {s t : State} (h : step s = .next t) :
    (∃ c rest, s.pending = c :: rest ∧ Effect c (s.setPending rest) t) ∨
      (s.pending = [] ∧ (t = s ∨ t = s.takeDue.expireOwed.characterTime)) := by
  unfold step at h
  split at h
  · rename_i hp
    refine .inr ⟨hp, ?_⟩
    cases h
    split
    · exact .inl rfl
    · exact .inr rfl
  · rename_i c rest hp
    exact .inl ⟨c, rest, hp, exec_effect h⟩

/-- Settles O58: the laws hold together, and every part of a step keeps them. -/
theorem stepKeepsSessionsQuotasAndTimebase : Obligations.StepKeepsSessionsQuotasAndTimebase := by
  intro s t hsession hquota htime hhalted h
  have hs : s.runLaws := ⟨hsession, hquota, htime, hhalted⟩
  rcases step_cases h with ⟨c, rest, -, e⟩ | ⟨-, rfl | rfl⟩
  · exact e.runLaws (runLaws_congr hs rfl rfl rfl fun _ => rfl)
  · exact hs
  · exact (characterTime_frame _).leases.runLaws
      (runLaws_expireOwed (runLaws_keptByTakings.takeDue hs))

end Sys2Proof.Machine
end

section
/-! The timebase's requests: TIME_READ, TIME_START and TIME_STOP, each evaluated on the state that its taking leaves. -/

namespace Sys2Proof.Machine

/-! ### The state that an owner acts on -/

@[simp] theorem dequeue_leased_tb (s : State) (p : StationNo) : ((s.dequeue p).leased p).tb = s.tb := rfl

@[simp] theorem dequeue_leased_order (s : State) (p : StationNo) (i : SlotNo) :
    ((s.dequeue p).leased p).order i = s.order i := rfl

@[simp] theorem dequeue_leased_pair (s : State) (p : StationNo) (k : PairNo) :
    ((s.dequeue p).leased p).pair k = s.pair k := rfl

@[simp] theorem leased_isBound (s : State) (p n : StationNo) : (s.leased p).isBound n = s.isBound n := by
  unfold State.isBound State.leased
  rw [State.setStation_station]
  split
  · rename_i e; rw [e]
  · rfl

@[simp] theorem leased_sessionByte (s : State) (p n : StationNo) :
    (s.leased p).sessionByte n = s.sessionByte n := by
  unfold State.sessionByte State.leased
  rw [State.setStation_station]
  split
  · rename_i e; rw [e]
  · rfl

/-- An admitted request that its owner refuses: the lease restarts and the refusal is placed (R170). -/
theorem take_admitted_refused {s : State} {p : StationNo} {f : RequestFrame} {c : RequestCode}
    {row : RequestFrame → Bool} {owner : StationNo → RequestFrame → State → OwnerReply}
    {outcome : ReplyCode} (h : s.admits p f c) (hc : c ≠ .bind) (hrow : row f = true)
    (ho : owner p f ((s.dequeue p).leased p) = refuse ((s.dequeue p).leased p) outcome) :
    s.take p row owner = (s.leased p).answered p f outcome [] :=
  take_admitted_unchanged h hc hrow ho

/-! ### TIME_READ -/

/-- Settles O10: the request is admitted, and its owner changes nothing. -/
theorem timeReadReports : Obligations.TimeReadReports := by
  intro p s f h
  have hstate : s.tb.state.byte = (match s.tb.state with
      | .halted => 0 | .armed => 1 | .running => 2 : Byte) := by cases s.tb.state <;> rfl
  have harming : stationByte s.tb.arming = (match s.tb.arming with
      | none => 0xFF | some n => BitVec.ofNat 8 n.val) := by cases s.tb.arming <;> rfl
  have htimer : s.tb.armTimer.getD 0 = (match s.tb.armTimer with
      | none => 0 | some n => n) := by cases s.tb.armTimer <;> rfl
  have ht := take_admitted_unchanged (owner := timeReadOwner) h (by decide) (rowOf_of_request h.2.1) rfl
  simp only [dequeue_leased_tb] at ht
  rw [hstate, harming, htimer] at ht
  exact congrArg _ ht

/-! ### TIME_START -/

/-- The parameters of a TIME_START are in range, its mode apart (R5). -/
def RequestFrame.startInRange (f : RequestFrame) : Prop :=
  (f.at 1).toNat ≤ 10 ∧ 16 ≤ (f.at 2).toNat ∧ (f.at 2).toNat ≤ 30 ∧ (f.at 3 = 0 ∨ f.at 3 = 1)

section TimeStart

variable {s : State} {f : RequestFrame}

theorem timeStartRefusal_accepts (hs : s.tb.state = .halted) (hr : f.startInRange)
    (hm : f.at 0 = 0 ∨ f.at 0 = 1) : timeStartRefusal s f = none := by
  obtain ⟨h1, h2, h3, h4⟩ := hr
  simp only [timeStartRefusal, hs, ne_eq, not_true_eq_false, if_false]
  exact if_pos ⟨hm, h1, h2, h3, h4⟩

theorem timeStartRefusal_state (hs : s.tb.state ≠ .halted) :
    timeStartRefusal s f = some .timebaseState := if_pos hs

theorem timeStartRefusal_value (hs : s.tb.state = .halted)
    (hr : ¬f.startInRange ∨ (f.at 0 ≠ 0 ∧ f.at 0 ≠ 1)) : timeStartRefusal s f = some .badValue := by
  simp only [timeStartRefusal, hs, ne_eq, not_true_eq_false, if_false]
  refine if_neg fun ⟨hm, h1, h2, h3, h4⟩ => ?_
  rcases hr with hr | ⟨h0, h0'⟩
  · exact hr ⟨h1, h2, h3, h4⟩
  · exact hm.elim h0 h0'

variable {p : StationNo} (h : s.admits p f .timeStart)
include h

/-- A TIME_START that the timebase refuses is answered by either row that takes it (R5, assumption 5). -/
theorem exec_timeStart_refused {outcome : ReplyCode} (hr : timeStartRefusal s f = some outcome) :
    (f.at 0 ≠ 1 →
      exec (.timeStartImmediate p) s = .next ((s.leased p).answered p f outcome [])) ∧
    (f.at 0 ≠ 0 →
      exec (.timeStartOnMark p) s = .next ((s.leased p).answered p f outcome [])) := by
  have hu : timeStartRefusal ((s.dequeue p).leased p) f = some outcome := hr
  refine ⟨fun hm => congrArg Host.Outcome.next ?_, fun hm => congrArg Host.Outcome.next ?_⟩
  · refine take_admitted_refused h (by decide) (rowOfEither_of_request h.2.1 hm) ?_
    simp only [timeStartImmediateOwner, hu]
  · refine take_admitted_refused h (by decide) (rowOfEither_of_request h.2.1 hm) ?_
    simp only [timeStartOnMarkOwner, hu]

/-- An accepted TIME_START in mode ON_MARK (R7). -/
theorem exec_timeStartOnMark (hs : s.tb.state = .halted) (hr : f.startInRange) (hm : f.at 0 = 1) :
    exec (.timeStartOnMark p) s = .next
      (({ s.leased p with tb := { s.tb.loaded f with
          state := .armed
          arming := some p
          armTimer := if f.half 8 = 0 then none else some (f.half 8) } }).answered p f .ok
        (1 :: bytes32 (s.tb.loaded f).t)) := by
  have hu : timeStartRefusal ((s.dequeue p).leased p) f = none :=
    timeStartRefusal_accepts hs hr (.inr hm)
  have hrow : rowOfEither .timeStart 0 0 f = true :=
    rowOfEither_of_request h.2.1 (by rw [hm]; decide)
  have ho : timeStartOnMarkOwner p f ((s.dequeue p).leased p) =
      { state := { (s.dequeue p).leased p with tb := { s.tb.loaded f with
          state := .armed
          arming := some p
          armTimer := if f.half 8 = 0 then none else some (f.half 8) } }
        outcome := .ok
        payload := 1 :: bytes32 (s.tb.loaded f).t } := by
    simp only [timeStartOnMarkOwner, hu]
    rfl
  refine congrArg _ ((take_admitted_eq h (by decide) hrow ho).trans ?_)
  exact replied_eq_answered f _ _ rfl

/-- The state that an accepted TIME_START in mode IMMEDIATE leaves before its reply (R6, R14). -/
def State.startedAt (s : State) (p : StationNo) (f : RequestFrame) : State :=
  ({ (s.dequeue p).leased p with
    tb := { s.tb.loaded f with state := .running } }).announceStart (fun n => n != p)

omit h in
theorem startedAt_frame (s : State) (p : StationNo) (f : RequestFrame) :
    OnlyPorts { (s.dequeue p).leased p with tb := { s.tb.loaded f with state := .running } }
      (s.startedAt p f) := appendNotices_frame _ _ _

omit h in
/-- Every other BOUND station is told of the start (R14). -/
theorem startedAt_port (s : State) (p : StationNo) (f : RequestFrame) (n : StationNo) :
    (s.startedAt p f).port n =
      if n ≠ p ∧ s.isBound n = true then
        ((s.dequeue p).port n).noticed (s.sessionByte n)
          (.timeStarted (s.tb.loaded f).t (s.tb.loaded f).d (s.tb.loaded f).h)
      else (s.dequeue p).port n := by
  unfold State.startedAt State.announceStart
  rw [appendNotices_port]
  have hb : ({ (s.dequeue p).leased p with
      tb := { s.tb.loaded f with state := .running } } : State).isBound n = s.isBound n :=
    leased_isBound (s.dequeue p) p n
  have hsb : ({ (s.dequeue p).leased p with
      tb := { s.tb.loaded f with state := .running } } : State).sessionByte n = s.sessionByte n :=
    leased_sessionByte (s.dequeue p) p n
  rw [hb, hsb]
  simp only [Bool.and_eq_true, bne_iff_ne, and_assoc, and_self]
  rfl

/-- An accepted TIME_START in mode IMMEDIATE (R6). -/
theorem exec_timeStartImmediate (hs : s.tb.state = .halted) (hr : f.startInRange) (hm : f.at 0 = 0) :
    exec (.timeStartImmediate p) s = .next
      ((s.startedAt p f).replied p f .ok (2 :: bytes32 (s.tb.loaded f).t)) := by
  have hu : timeStartRefusal ((s.dequeue p).leased p) f = none :=
    timeStartRefusal_accepts hs hr (.inl hm)
  have hrow : rowOfEither .timeStart 0 1 f = true :=
    rowOfEither_of_request h.2.1 (by rw [hm]; decide)
  have ho : timeStartImmediateOwner p f ((s.dequeue p).leased p) =
      { state := s.startedAt p f, outcome := .ok, payload := 2 :: bytes32 (s.tb.loaded f).t } := by
    simp only [timeStartImmediateOwner, hu]
    rfl
  exact congrArg _ (take_admitted_eq h (by decide) hrow ho)

end TimeStart

/-- Settles O11. -/
theorem timeStartStartsOrRefuses : Obligations.TimeStartStartsOrRefuses := by
  intro p s f h inRange start
  refine ⟨fun hs hr hm => ?_, fun hs hr hm => exec_timeStartOnMark h hs hr hm,
    fun hs => exec_timeStart_refused h (timeStartRefusal_state hs),
    fun hs hr => exec_timeStart_refused h (timeStartRefusal_value hs hr)⟩
  have hf := startedAt_frame s p f
  refine ⟨_, exec_timeStartImmediate h hs hr hm, ?_, ?_, ?_, fun n hn => ?_⟩
  · rw [State.replied, hf]; rfl
  · rw [State.replied, State.setPort_tb, hf.tb]; rfl
  · rw [State.replied, State.setPort_port_self, startedAt_port, if_neg (fun e => e.1 rfl),
      State.dequeue, State.setPort_port_self]
    rfl
  · rw [State.replied, State.setPort_port_ne _ _ _ hn, startedAt_port,
      State.dequeue, State.setPort_port_ne _ _ _ hn]
    simp only [hn, ne_eq, not_false_eq_true, true_and]
    rfl

/-! ### TIME_STOP -/

section TimeStop

variable {s : State} {p : StationNo} {f : RequestFrame} (h : s.admits p f .timeStop)
include h

/-- TIME_STOP while an order or a gap exists (R12). -/
theorem exec_timeStop_inUse (hu : (∃ i, s.order i ≠ none) ∨ ∃ k, (s.pair k).state.inGap = true) :
    exec (.timeStop p) s = .next ((s.leased p).answered p f .inUse []) := by
  refine congrArg _ (take_admitted_refused h (by decide) (rowOf_of_request h.2.1) ?_)
  have hany : ((s.dequeue p).leased p).anyOrder || ((s.dequeue p).leased p).anyGap := by
    by_contra hn
    simp only [Bool.not_eq_true, Bool.or_eq_false_iff, anyOrder_eq_false, anyGap_eq_false,
      dequeue_leased_order, dequeue_leased_pair] at hn
    rcases hu with ⟨i, hi⟩ | ⟨k, hk⟩
    · exact hi (hn.1 i)
    · rw [hn.2 k] at hk; cases hk
  exact if_pos hany

/-- TIME_STOP where no order and no gap exists: the timebase halts, and the reply carries the state found and T
(R12). -/
theorem exec_timeStop_halts (ho : ∀ i, s.order i = none) (hg : ∀ k, (s.pair k).state.inGap = false) :
    exec (.timeStop p) s = .next (((s.dequeue p).leased p).halt.replied p f .ok
      (s.tb.state.byte :: bytes32 s.tb.t)) := by
  have hany : ¬(((s.dequeue p).leased p).anyOrder || ((s.dequeue p).leased p).anyGap) := by
    simp only [Bool.not_eq_true, Bool.or_eq_false_iff, anyOrder_eq_false, anyGap_eq_false]
    exact ⟨ho, hg⟩
  exact congrArg _ (take_admitted_eq h (by decide) (rowOf_of_request h.2.1) (if_neg hany))

end TimeStop

/-- What the end of sampling leaves of an input (R118). -/
theorem stopSampling_eq (r : InputRec) :
    r.stopSampling = if r.state = .idle then r else { r with state := .watching none } := by
  unfold InputRec.stopSampling
  cases r.state <;> simp

@[simp] theorem stopSampling_input (s : State) (c : InputNo) :
    s.stopSampling.input c = (s.input c).stopSampling := by
  simp [State.stopSampling, State.input]

/-- Settles O12. -/
theorem timeStopHaltsOrRefuses : Obligations.TimeStopHaltsOrRefuses := by
  intro p s f h
  refine ⟨exec_timeStop_inUse h, fun ho hg => ?_⟩
  have he := exec_timeStop_halts h ho hg
  refine ⟨fun hs => ⟨_, he, ?_, fun c => ?_⟩, fun hs => ?_, fun hs => ?_⟩
  · simp only [State.halt, dequeue_leased_tb, hs]
    exact replied_eq_answered f _ _ rfl
  · simp only [State.halt, dequeue_leased_tb, hs, State.replied, State.setPort_input, stopSampling_input]
    exact stopSampling_eq _
  · rw [he]
    simp only [State.halt, dequeue_leased_tb, hs]
    exact congrArg _ (replied_eq_answered f _ _ rfl)
  · rw [he]
    simp only [State.halt, dequeue_leased_tb, hs]
    exact congrArg _ (replied_eq_answered f _ _ rfl)

end Sys2Proof.Machine
end

section
/-! The timebase's own events: what ends ARMED, the expiries that a lease boundary owes, the boundary itself, and the
tick with the work that it finds undone. -/

namespace Sys2Proof.Machine

/-! ### What ends ARMED -/

theorem markEdge_of_armed {s : State} (h : s.tb.state = .armed) :
    s.markEdge = ({ s with tb := { s.tb with state := .running, armTimer := none, arming := none } } :
      State).announceStart (fun _ => true) := if_pos h

theorem markEdge_of_not_armed {s : State} (h : s.tb.state ≠ .armed) : s.markEdge = s := if_neg h

theorem armExpiry_of_not_owed {s : State} (h : ¬(s.tb.state = .armed ∧ s.tb.armTimer = some 0)) :
    s.armExpiry = s := if_neg h

/-- The state that the arm timer's expiry leaves, but for its notice (R9). -/
def State.timedOut (s : State) : State :=
  { s with tb := { s.tb with state := .halted, armTimer := none, arming := none } }

/-- The arm timer's expiry: HALTED, and MARK_TIMEOUT for the arming station (R9). -/
theorem armExpiry_owed {s : State} (h : s.tb.state = .armed ∧ s.tb.armTimer = some 0) :
    s.armExpiry = match s.tb.arming with
      | some n => s.timedOut.appendNotice n (.markTimeout s.tb.t s.tb.d s.tb.h)
      | none => s.timedOut := by
  unfold State.armExpiry
  rw [if_pos h]
  rfl

theorem armExpiry_frame {s : State} (h : s.tb.state = .armed ∧ s.tb.armTimer = some 0) :
    OnlyPorts s.timedOut s.armExpiry := by
  rw [armExpiry_owed h]
  split
  · exact appendNotice_frame _ _ _
  · rfl

theorem armExpiry_port {s : State} (h : s.tb.state = .armed ∧ s.tb.armTimer = some 0) (n : StationNo) :
    s.armExpiry.port n =
      if s.tb.arming = some n ∧ s.isBound n = true then
        (s.port n).noticed (s.sessionByte n) (.markTimeout s.tb.t s.tb.d s.tb.h)
      else s.port n := by
  rw [armExpiry_owed h]
  cases ha : s.tb.arming with
  | none => simp; rfl
  | some m =>
    dsimp only
    rw [appendNotice_port]
    by_cases hm : n = m
    · subst hm; simp; rfl
    · have hm' : m ≠ n := Ne.symm hm
      simp [hm, hm']; rfl

/-- Settles O14. -/
theorem armedTimebaseStartsOrTimesOut : Obligations.ArmedTimebaseStartsOrTimesOut := by
  intro s hw
  have hmark : exec .markRisingEdge s = .next s.markEdge := acting_atWork hw _
  have harm : exec .armTimerExpiry s = .next s.armExpiry := acting_atWork hw _
  rw [hmark, harm]
  refine ⟨fun hs => ⟨_, rfl, ?_, fun n => ?_⟩, fun hs => ?_, fun hs ht => ⟨_, rfl, ?_, ?_⟩⟩
  · rw [markEdge_of_armed hs]
    exact appendNotices_frame _ _ _
  · rw [markEdge_of_armed hs, State.announceStart, appendNotices_port]
    simp only [Bool.true_and, and_self]
    rfl
  · rw [markEdge_of_not_armed hs, armExpiry_of_not_owed fun e => hs e.1]
    exact ⟨rfl, rfl⟩
  · exact armExpiry_frame ⟨hs, ht⟩
  · exact armExpiry_port ⟨hs, ht⟩

/-! ### The expiries owed (R9, R45, R142) -/

/-- The arm timer's expiry is owed. -/
def State.armOwed (s : State) : Prop := s.tb.state = .armed ∧ s.tb.armTimer = some 0

theorem armExpiry_not_armOwed (s : State) : ¬s.armExpiry.armOwed := by
  by_cases h : s.tb.state = .armed ∧ s.tb.armTimer = some 0
  · intro ⟨e, _⟩
    rw [(armExpiry_frame h).tb] at e
    cases e
  · rw [armExpiry_of_not_owed h]; exact h

/-- No waiting claim is left at 0. -/
theorem expireWaits_deadline (s : State) : ∀ w ∈ s.expireWaits.waiting, w.deadline ≠ 0 := by
  intro w hw
  unfold State.expireWaits at hw
  split at hw
  · rename_i h
    intro hd
    have : w ∈ s.expired := List.mem_filter.mpr ⟨hw, by simp [hd]⟩
    rw [h] at this; cases this
  · have hc := (Calm.foldl (f := State.announceExpiry) (fun u w => calm_appendNotice u _ _) s.expired
      { s with waiting := s.waiting.filter (fun w => w.deadline != 0) }).trans (calm_grantScan _)
    simpa using (List.mem_filter.mp (hc.waiting w hw)).2

/-- A teardown touches no other station's record, and ends the session of its own. -/
theorem teardown_station (s : State) (n m : StationNo) (lapsed : Bool) :
    (s.teardown n lapsed).station m =
      if m = n then { s.station n with
        session := if lapsed then .lapsed else .unbound
        number := if lapsed then (s.station n).number else none
        leasePeriod := none, leaseTimer := none, quota := 0 }
      else s.station m := by
  have hd : ∀ u : State, (u.disarm n).station m = u.station m := fun u => by
    unfold State.disarm; split <;> rfl
  have hc : ∀ u : State, (u.captureTeardown n).station m = u.station m := fun _ => rfl
  have ho : ∀ u : State, (u.orderTeardown n).station m =
      if m = n then { u.station n with quota := 0 } else u.station m := fun u => by
    rw [orderTeardown_eq, State.setStation_station]; rfl
  rw [State.teardown, hd, hc, (calm_claimTeardown _ n).station, ho]
  simp only [endSession_station]
  split <;> rfl

/-- Of the timebase a teardown touches the arming station alone (R11). -/
theorem teardown_tb (s : State) (n : StationNo) (lapsed : Bool) :
    (s.teardown n lapsed).tb =
      { s.tb with arming := if s.tb.arming = some n then none else s.tb.arming } := by
  have hd : ∀ u : State, (u.disarm n).tb =
      { u.tb with arming := if u.tb.arming = some n then none else u.tb.arming } := fun u => by
    unfold State.disarm; split <;> rfl
  have hc : ∀ u : State, (u.captureTeardown n).tb = u.tb := fun _ => rfl
  have ho : ∀ u : State, (u.orderTeardown n).tb = u.tb := fun u => by rw [orderTeardown_eq]; rfl
  rw [State.teardown, hd, hc, (calm_claimTeardown _ n).tb, ho]
  rfl

theorem lapse_armOwed {s : State} (n : StationNo) (h : ¬s.armOwed) : ¬(s.lapse n).armOwed := by
  have key : ∀ u : State, u.tb = (s.teardown n true).tb → ¬u.armOwed := fun u hu => by
    unfold State.armOwed; rw [hu, teardown_tb]; exact h
  unfold State.lapse; split
  · exact key _ rfl
  · exact h

/-- After the lapse of station `n` its lease is owed no expiry, and every other lease is owed its own as before. -/
theorem lapse_leaseOwed (s : State) (n m : StationNo) :
    (s.lapse n).leaseOwed m = (s.leaseOwed m && m != n) := by
  have key : ∀ u : State, u.station m = (s.teardown n true).station m →
      u.leaseOwed m = (s.leaseOwed m && m != n) := fun u hu => by
    unfold State.leaseOwed State.isBound
    rw [hu, teardown_station]
    by_cases hm : m = n
    · simp [hm]
    · simp [hm]
  unfold State.lapse
  split
  · exact key _ rfl
  · rename_i hn
    by_cases hm : m = n
    · subst hm; simpa using hn
    · simp [hm]

/-- The leases' expiries, stations ascending. -/
theorem expireOwed_eq (s : State) :
    s.expireOwed = ((((s.armExpiry.expireWaits).lapse 0).lapse 1).lapse 2).lapse 3 := by
  simp [State.expireOwed, List.finRange_succ]

/-- No expiry is owed when those owed have been made. -/
theorem expireOwed_unowed (s : State) : s.expireOwed.unowed := by
  have ha : ¬s.armExpiry.expireWaits.armOwed := by
    unfold State.armOwed
    rw [(calm_expireWaits _).tb]
    exact armExpiry_not_armOwed s
  have hw := expireWaits_deadline s.armExpiry
  rw [expireOwed_eq]
  generalize s.armExpiry.expireWaits = u at ha hw
  refine ⟨lapse_armOwed 3 (lapse_armOwed 2 (lapse_armOwed 1 (lapse_armOwed 0 ha))), ?_, ?_⟩
  · exact fun w h => hw w ((draining_lapse u 0).waiting w ((draining_lapse _ 1).waiting w
      ((draining_lapse _ 2).waiting w ((draining_lapse _ 3).waiting w h))))
  · intro n
    simp only [lapse_leaseOwed]
    rcases stationNo_cases n with rfl | rfl | rfl | rfl <;> simp

/-- A lease boundary acts alike on the state with the expiries owed. -/
theorem expireOwed_expireOwed (s : State) : s.expireOwed.expireOwed = s.expireOwed :=
  expireOwed_of_unowed (expireOwed_unowed s)

/-- Each expiry owed is made as its own command makes it (R9, R45, R142). -/
theorem expireOwed_by_commands {s : State} (h : s.atWork) :
    ∃ a b c d e : State,
      exec .armTimerExpiry s = .next a ∧ exec .waitExpiry a = .next b ∧
      exec (.leaseExpiry 0) b = .next c ∧ exec (.leaseExpiry 1) c = .next d ∧
      exec (.leaseExpiry 2) d = .next e ∧ exec (.leaseExpiry 3) e = .next s.expireOwed := by
  have ha : s.armExpiry.atWork :=
    ⟨(steady_armExpiry s).inReset.trans h.1, fun n => (draining_armExpiry s).settled n (h.2 n)⟩
  have hlapse : ∀ (u : State) (n : StationNo), u.inReset = false →
      exec (.leaseExpiry n) u = .next (u.lapse n) ∧ (u.lapse n).inReset = false := fun u n hu => by
    refine ⟨?_, (steady_lapse u n).inReset.trans hu⟩
    show working u _ = _
    simp [working, hu]
  obtain ⟨h0, r0⟩ := hlapse _ 0 ((calm_expireWaits _).inReset.trans ha.1)
  obtain ⟨h1, r1⟩ := hlapse _ 1 r0
  obtain ⟨h2, r2⟩ := hlapse _ 2 r1
  obtain ⟨h3, -⟩ := hlapse _ 3 r2
  refine ⟨_, _, _, _, _, acting_atWork h _, acting_atWork ha _, h0, h1, h2, ?_⟩
  rw [h3, expireOwed_eq]

/-! ### A lease boundary (R15) -/

theorem exec_leaseBoundary {s : State} (h : s.inReset = false) :
    exec .leaseBoundary s = .next s.meetBoundary := by
  show working s _ = _
  simp [working, h]

@[simp] theorem leaseUnitEnds_station (s : State) (n : StationNo) :
    s.leaseUnitEnds.station n =
      { s.station n with leaseTimer := (s.station n).leaseTimer.map countDown } := by
  simp [State.leaseUnitEnds, State.station]

/-- A boundary that owes no expiry, with the requests of its instant: it decrements the timers set before them
(R15, R143). -/
theorem meetBoundary_of_unowed {s : State} (h : s.unowed) :
    s.meetBoundary = { s.leaseUnitEnds.serveDue with
      tb := { s.leaseUnitEnds.serveDue.tb with
        armTimer :=
          if s.tb.armTimer = none then s.leaseUnitEnds.serveDue.tb.armTimer
          else s.leaseUnitEnds.serveDue.tb.armTimer.map countDown } } := by
  unfold State.meetBoundary
  rw [expireOwed_of_unowed h]
  dsimp only
  generalize s.leaseUnitEnds.serveDue = u
  cases s.tb.armTimer with
  | none => rfl
  | some x => rfl

/-- Settles O15. -/
theorem leaseBoundaryCountsDown : Obligations.LeaseBoundaryCountsDown := by
  refine ⟨fun s hw hu => ?_, fun s hr hu => ?_, fun s hr => ?_, fun s hw => ?_⟩
  · rw [exec_leaseBoundary hw.1, meetBoundary_eq hw.2 hu]
    exact ⟨_, rfl, rfl, leaseUnitEnds_station s⟩
  · rw [exec_leaseBoundary hr, meetBoundary_of_unowed hu]
    exact ⟨s.leaseUnitEnds, rfl, leaseUnitEnds_station s, rfl⟩
  · rw [exec_leaseBoundary hr, exec_leaseBoundary ((steady_expireOwed s).inReset.trans hr)]
    unfold State.meetBoundary
    rw [expireOwed_expireOwed]
  · exact ⟨expireOwed_atWork hw, expireOwed_unowed s, expireOwed_by_commands hw⟩

end Sys2Proof.Machine
end

section
/-! The tick (R1): the work that it finds undone, as the run of the commands that make it, and the advance of T. -/

namespace Sys2Proof.Machine

theorem Calm.atWork {s t : State} (a : Calm s t) (h : s.atWork) : t.atWork :=
  ⟨a.inReset.trans h.1, fun n => a.settled n (h.2 n)⟩

/-! ### Where nothing is due -/

theorem fireDue_of_none {s : State}
    (h : ∀ i ∈ s.schedule, ∀ o, s.order i = some o → ∀ ph, o.state ≠ .scheduled s.tb.t ph) :
    s.fireDue = s := by
  have hd : s.dueSlots = [] := by
    refine List.filter_eq_nil_iff.mpr fun i hi hdue => ?_
    unfold State.orderDue at hdue
    split at hdue
    · rename_i o ho
      split at hdue
      · rename_i e ph hst
        exact h i hi o ho ph (by rw [hst, eq_of_beq hdue])
      · cases hdue
    · cases hdue
  rw [State.fireDue, hd]
  rfl

theorem completeGap_of_none {s : State} {k : PairNo}
    (h : (s.pair k).state ≠ .gapToPrimary s.tb.t ∧ (s.pair k).state ≠ .gapToPartner s.tb.t) :
    s.completeGap k = s := by
  unfold State.completeGap
  split
  · rename_i hst; exact if_neg fun e => h.1 (by rw [hst, e])
  · rename_i hst; exact if_neg fun e => h.2 (by rw [hst, e])
  all_goals rfl

theorem completeGaps_of_none {s : State}
    (h : ∀ k, (s.pair k).state ≠ .gapToPrimary s.tb.t ∧ (s.pair k).state ≠ .gapToPartner s.tb.t) :
    s.completeGaps = s := List.foldl_fixed' (fun k => completeGap_of_none (h k)) _

/-- The filter of an input closes at T exactly where its edge in filter has stood its time (R117). -/
theorem closingLevel_eq_some {s : State} {c : InputNo} {level : Level} (h : s.closingLevel c = some level) :
    ∃ before edge x, (s.input c).state = .filtering before edge ∧ (s.input c).settings = some x ∧
      s.tb.t = closeTime edge x ∧ level = edge.newLevel := by
  unfold State.closingLevel at h
  split at h
  · rename_i before edge x hst hset
    split at h
    · rename_i ht
      cases h
      exact ⟨before, edge, x, hst, hset, ht, rfl⟩
    · cases h
  · cases h

theorem closeFilter_of_none {s : State} {c : InputNo} (h : ∀ level edge x,
    (s.input c).state = .filtering level edge → (s.input c).settings = some x →
      edge.edgeTime + x.filter.setWidth 32 ≠ s.tb.t) : s.closeFilter c = s := by
  unfold State.closeFilter
  split
  · rename_i hc
    obtain ⟨before, edge, x, hst, hset, ht, -⟩ := closingLevel_eq_some hc
    exact absurd ht.symm (h before edge x hst hset)
  · rfl

/-- Where nothing is due at T, no work is undone. -/
theorem settle_of_none {s : State}
    (ho : ∀ i ∈ s.schedule, ∀ o, s.order i = some o → ∀ ph, o.state ≠ .scheduled s.tb.t ph)
    (hg : ∀ k, (s.pair k).state ≠ .gapToPrimary s.tb.t ∧ (s.pair k).state ≠ .gapToPartner s.tb.t)
    (hf : ∀ c level edge x, (s.input c).state = .filtering level edge → (s.input c).settings = some x →
      edge.edgeTime + x.filter.setWidth 32 ≠ s.tb.t) : s.settle = s := by
  rw [State.settle, fireDue_of_none ho, completeGaps_of_none hg]
  exact List.foldl_fixed' (fun c => closeFilter_of_none (hf c)) _

/-! ### The undone work -/

theorem closeFilter_frame (s : State) (c : InputNo) : OnlyCapture s (s.closeFilter c) := by
  unfold State.closeFilter; split
  · exact sample_frame s c _
  · exact OnlyCapture.refl s

theorem settle_frame (s : State) : OnlyCapture s s.settle :=
  ((fireDue_frame s).trans (completeGaps_frame _).toOrders).toCapture.trans
    (foldl_frame OnlyCapture.refl OnlyCapture.trans closeFilter_frame _ _)

theorem countLost_inputs (s : State) (x : StationSet) : (s.countLost x).inputs = s.inputs := by
  unfold State.countLost
  generalize (List.finRange 4).filter (inSet x) = l
  induction l generalizing s with
  | nil => rfl
  | cons n l ih => rw [List.foldl_cons, ih]; rfl

/-- An acceptance touches the input records of no input (R122). -/
theorem accept_inputs (s : State) (c : InputNo) (d : Direction) (e : Time) :
    (s.accept c d e).inputs = s.inputs := by
  have hroom : s.makeRoom.inputs = s.inputs := by
    unfold State.makeRoom
    repeat' split
    · rfl
    · rfl
    · exact countLost_inputs _ _
  have htrig : ∀ u : State, (u.triggerAll c e).inputs = u.inputs := fun u => (triggerAll_frame u c e).inputs
  unfold State.accept
  dsimp only
  rw [htrig, (appendNotices_frame _ _ _).inputs]
  exact hroom

/-- A sample touches the record of its own input alone. -/
theorem sample_input_ne (s : State) {c x : InputNo} (h : x ≠ c) (level : Level) :
    (s.sample c level).input x = s.input x := by
  have hset : ∀ y, (s.setInputState c y).input x = s.input x := fun y => State.setInput_input_ne _ _ _ h
  have hacc : ∀ y d e, ((s.setInputState c y).accept c d e).input x = s.input x := fun y d e => by
    rw [← hset y, State.input, accept_inputs]; rfl
  unfold State.sample State.transition State.filterSample
  repeat' split
  all_goals first
    | rfl
    | exact hset _
    | exact hacc _ _ _

theorem closeFilter_input_ne (s : State) {c x : InputNo} (h : x ≠ c) :
    (s.closeFilter c).input x = s.input x := by
  unfold State.closeFilter; split
  · exact sample_input_ne s h _
  · rfl

/-! ### The undone work, command by command -/

theorem leads_append {s t u : State} {l m : List Instr} (h1 : s.leads l t) (h2 : t.leads m u) :
    s.leads (l ++ m) u := by
  induction l generalizing s with
  | nil => cases h1; exact h2
  | cons c l ih =>
    obtain ⟨v, hv, hl⟩ := h1
    exact ⟨v, hv, ih hl⟩

section Run

variable {s : State} (hw : s.atWork) (hr : s.running = true)
include hw hr

theorem exec_firing : exec .firing s = .next s.fireDue := by
  simp only [exec, execFiring, acting_atWork hw, hr, if_true]

theorem exec_gapCompletion (k : PairNo) : exec (.gapCompletion k) s = .next (s.completeGap k) := by
  simp only [exec, execGapCompletion, acting_atWork hw, hr, if_true]

omit hr in
/-- FILTER_CLOSE at the level that its edge in filter has is the close that TICK makes (assumption 7). -/
theorem exec_filterClose {c : InputNo} {level : Level}
    (hl : ∀ before edge, (s.input c).state = .filtering before edge → level = edge.newLevel) :
    exec (.filterClose c level) s = .next (s.closeFilter c) := by
  simp only [exec, execFilterClose, acting_atWork hw]
  unfold State.closeFilter
  cases hc : s.closingLevel c with
  | none => rfl
  | some x =>
    obtain ⟨before, edge, -, hst, -, -, rfl⟩ := closingLevel_eq_some hc
    rw [hl before edge hst]
    rfl

theorem leads_gapCompletions (l : List PairNo) :
    s.leads (l.map fun k => .gapCompletion k) (l.foldl State.completeGap s) := by
  induction l generalizing s with
  | nil => rfl
  | cons k l ih =>
    have hc := calm_completeGap s k
    exact ⟨_, exec_gapCompletion hw hr k, ih (hc.atWork hw) (hc.running.trans hr)⟩

omit hr in
theorem leads_filterCloses (level : InputNo → Level) {l : List InputNo} (hd : l.Nodup)
    (hl : ∀ c ∈ l, ∀ before edge, (s.input c).state = .filtering before edge →
      level c = edge.newLevel) :
    s.leads (l.map fun c => .filterClose c (level c)) (l.foldl State.closeFilter s) := by
  induction l generalizing s with
  | nil => rfl
  | cons c l ih =>
    obtain ⟨hc, hd⟩ := List.nodup_cons.mp hd
    refine ⟨_, exec_filterClose hw (hl c List.mem_cons_self),
      ih ((calm_closeFilter s c).atWork hw) hd fun x hx => ?_⟩
    have hne : x ≠ c := fun e => hc (by rwa [← e])
    rw [closeFilter_input_ne s hne]
    exact hl x (List.mem_cons_of_mem _ hx)

/-- The undone work is the run of FIRING, GAP_COMPLETION of each pair and FILTER_CLOSE of each input. -/
theorem leads_settle (level : InputNo → Level)
    (hl : ∀ c before edge, (s.input c).state = .filtering before edge → level c = edge.newLevel) :
    s.leads ([.firing] ++ (List.finRange 8).map (fun k => .gapCompletion k) ++
      (List.finRange 8).map (fun c => .filterClose c (level c))) s.settle := by
  have h1 := calm_fireDue s
  have h2 := h1.trans (calm_completeGaps _)
  have hin : ∀ c, s.fireDue.completeGaps.input c = s.input c := fun c => by
    rw [(completeGaps_frame _).input, (fireDue_frame s).input]
  refine leads_append (leads_append (t := s.fireDue) ⟨_, exec_firing hw hr, rfl⟩
    (leads_gapCompletions (h1.atWork hw) (h1.running.trans hr) _)) ?_
  exact leads_filterCloses (h2.atWork hw) level (List.nodup_finRange 8) fun c _ => by
    rw [hin]; exact hl c

end Run

/-! ### The tick -/

theorem exec_tick {s : State} (h : s.atWork) : exec .tick s = .next s.expireOwed.tick := by
  simp only [exec, execTick, acting_atWork h]

theorem exec_tick_running {s : State} (h : s.atWork) (hu : s.unowed) (hr : s.running = true) :
    exec .tick s = .next s.settle.advance := by
  rw [exec_tick h, expireOwed_of_unowed hu, State.tick, if_pos hr]

theorem advance_eq (s : State) : s.advance = { s with tb := { s.tb with t := s.tb.t + 1 } } := rfl

/-- Only what is due at T, and T itself, changes at a tick. -/
theorem OnlyCapture.advance {s u : State} (h : OnlyCapture s u) :
    u.advance = { s with
      tb := { s.tb with t := s.tb.t + 1 }
      lines := u.advance.lines, pairs := u.advance.pairs, slots := u.advance.slots
      schedule := u.advance.schedule, armed := u.advance.armed, ports := u.advance.ports
      inputs := u.advance.inputs, journal := u.advance.journal, captureSeq := u.advance.captureSeq
      journalLost := u.advance.journalLost } := by
  rw [OnlyCapture] at h
  conv_lhs => rw [h]
  rfl

/-- Settles O13. -/
theorem tickAdvancesTime : Obligations.TickAdvancesTime := by
  refine ⟨fun s hw => ?_, fun s level hw hu hr hl => ?_, fun s hw hu => ⟨fun hr => ?_, fun hr ho hg hf => ?_,
    fun hr => ?_⟩⟩
  · rw [exec_tick hw, exec_tick (expireOwed_atWork hw), expireOwed_expireOwed]
  · exact ⟨s.settle, leads_settle hw hr level hl,
      (exec_tick_running hw hu hr).trans (congrArg _ (advance_eq _))⟩
  · exact ⟨_, exec_tick_running hw hu hr, (settle_frame s).advance⟩
  · rw [exec_tick_running hw hu hr, settle_of_none ho hg hf, advance_eq]
  · rw [exec_tick hw, expireOwed_of_unowed hu, State.tick, if_neg (by simp [hr])]

end Sys2Proof.Machine
end

section
/-! The state after power-on reset: what each record holds there, and that every law of the device holds. -/

namespace Sys2Proof.Machine

/-! ### The records after reset -/

@[simp] theorem reset_waiting : State.reset.waiting = [] := rfl
@[simp] theorem reset_journal : State.reset.journal = [] := rfl

@[simp] theorem reset_line (l : LineNo) : State.reset.line l = LineRec.powerOn := by
  simp [State.reset, State.powerOn, State.line]

@[simp] theorem reset_pair (k : PairNo) : State.reset.pair k = PairUnit.powerOn := by
  simp [State.reset, State.powerOn, State.pair]

@[simp] theorem reset_group (g : GroupNo) : State.reset.group g = ⟨.normal, .either⟩ := by
  simp [State.reset, State.powerOn, State.group]

@[simp] theorem reset_slot (i : SlotNo) : State.reset.slot i = ⟨0, none⟩ := by
  simp [State.reset, State.powerOn, State.slot]

@[simp] theorem reset_order (i : SlotNo) : State.reset.order i = none := by simp [State.order]

@[simp] theorem reset_armedOn (c : InputNo) : State.reset.armedOn c = [] := by
  simp [State.reset, State.powerOn, State.armedOn]

@[simp] theorem reset_input (c : InputNo) : State.reset.input c = InputRec.powerOn := by
  simp [State.reset, State.powerOn, State.input]

@[simp] theorem reset_lostOf (n : StationNo) : State.reset.lostOf n = 0 := by
  simp [State.reset, State.powerOn, State.lostOf]

@[simp] theorem reset_station (n : StationNo) : State.reset.station n = StationRec.powerOn := by
  simp [State.reset, State.powerOn, State.station]

@[simp] theorem reset_port (n : StationNo) : State.reset.port n = PortRec.powerOn := by
  simp [State.reset, State.powerOn, State.port]

/-! ### The laws after reset -/

theorem reset_queueLaw : State.reset.queueLaw := by
  intro n
  rw [reset_port]
  exact ⟨by decide, by decide, fun _ => rfl⟩

theorem reset_claimLaw : State.reset.claimLaw := by
  refine ⟨fun c hc => ?_, List.nodup_nil, fun c hc => ?_, fun l id hl => ?_⟩
  · cases hc
  · cases hc
  · rw [reset_line] at hl; cases hl

theorem reset_waitLaw : State.reset.waitLaw := by
  refine ⟨?_, fun n => ?_⟩ <;> simp

theorem reset_captureLaw : State.reset.captureLaw := by
  refine ⟨by simp, rfl, fun c => ?_⟩
  rw [reset_input]
  exact ⟨by decide, by decide⟩

theorem reset_trippedLaw : State.reset.trippedLaw := by
  intro g hg
  rw [reset_group] at hg
  cases hg

theorem reset_orderLaw : State.reset.orderLaw := by
  intro i o ho
  rw [reset_order] at ho
  cases ho

theorem reset_pairLaw : State.reset.pairLaw := by
  intro k
  rw [reset_pair]
  trivial

/-- Without an order no list holds one, and no list holds anything. -/
theorem reset_scheduleLaw : State.reset.scheduleLaw := by
  have h : ∀ i o, State.reset.order i ≠ some o := fun i o => by rw [reset_order]; exact nofun
  refine ⟨List.nodup_nil, fun i => ⟨fun hi => ?_, ?_⟩, List.Pairwise.nil, fun i o ho => absurd ho (h i o),
    fun c => ?_, fun c i => ⟨fun hi => ?_, ?_⟩, fun i o ho => absurd ho (h i o),
    fun i o ho => absurd ho (h i o)⟩
  · cases hi
  · rintro ⟨o, _, _, ho, -⟩; exact absurd ho (h i o)
  · rw [reset_armedOn]; exact List.nodup_nil
  · rw [reset_armedOn] at hi; cases hi
  · rintro ⟨o, _, ho, -⟩; exact absurd ho (h i o)

/-- Settles O52. -/
theorem resetStateIsLawful : Obligations.ResetStateIsLawful := by
  obtain ⟨hsession, hquota, htime, hhalted⟩ := powerOn_runLaws .low .low .high .high
  exact ⟨⟨rfl, rfl, rfl, rfl⟩, reset_line, reset_pair, reset_group, ⟨rfl, rfl, rfl⟩, reset_slot,
    ⟨rfl, rfl, rfl, rfl⟩, fun c => ⟨reset_armedOn c, reset_input c⟩,
    fun n => ⟨reset_lostOf n, reset_station n⟩, reset_port, reset_queueLaw, reset_claimLaw, reset_waitLaw,
    reset_captureLaw, hsession, htime, hquota, hhalted, reset_trippedLaw, reset_orderLaw, reset_pairLaw,
    reset_scheduleLaw⟩

end Sys2Proof.Machine
end

section
/-! Two packages. `WorkRelation`: a relation between states that the small updates of the part's work keep holds of
every firing, cancellation, trigger, sample, trip and settling. `KeptBySteps`: a predicate that every taking and every event
keeps is kept by every step. -/

namespace Sys2Proof.Machine

/-! ### The small updates of the part's work -/

/-- Only ports, the schedule list, the armed set, the capture unit's records, the guard activities and the counter of
free values differ. -/
def OnlyAside (s t : State) : Prop :=
  t = { s with
    freeChoices := t.freeChoices, schedule := t.schedule, armed := t.armed, guardA := t.guardA
    guardB := t.guardB, inputs := t.inputs, journal := t.journal, captureSeq := t.captureSeq
    journalLost := t.journalLost, ports := t.ports }

theorem OnlyPorts.aside {s t : State} (h : OnlyPorts s t) : OnlyAside s t := by
  rw [OnlyPorts] at h; rw [h]; rfl

/-- The orders `a` and `b` are of one station and target the same lines. -/
def SameTask (a b : Order) : Prop := a.station = b.station ∧ a.body.targets = b.body.targets

theorem SameTask.refl (a : Order) : SameTask a a := ⟨rfl, rfl⟩

/-- A relation that the small updates of the part's work keep: commands to the target lines of an order that stands, gap
completions, trips, a slot freed, and a slot written with an order for the same task as the one that stood there. -/
structure WorkRelation (R : State → State → Prop) : Prop where
  refl : ∀ s, R s s
  trans : ∀ {s t u}, R s t → R t u → R s u
  aside : ∀ {s t}, OnlyAside s t → R s t
  command : ∀ {s i a l}, s.order i = some a → named a.body.targets l = true → ∀ c, R s (s.command l c)
  completeGap : ∀ s k, R s (s.completeGap k)
  tripGroup : ∀ s g, R s (s.tripGroup g)
  freeSlot : ∀ s i x, x.order = none → R s (s.setSlot i x)
  rewrite : ∀ {s t i a o}, R s t → s.order i = some a → SameTask a o → R s (t.setOrder i o)

theorem named_lineMask_self : ∀ l : LineNo, named (lineMask l) l = true := by decide

theorem named_groupMaskLines : ∀ (g : GroupNo) (m : BitVec 4) (j : Fin 4),
    named (groupMaskLines g m) (groupLine g j) = m.getLsbD j.val := by decide

/-- The line of an order is a target of it (R58). -/
theorem named_targets_of_line {b : OrderBody} {l : LineNo} (h : b.line = some l) :
    named b.targets l = true := by
  cases b with
  | pattern => cases h
  | _ => cases h; exact named_lineMask_self l

namespace WorkRelation

variable {R : State → State → Prop} (w : WorkRelation R)
include w

theorem foldl {α : Type} {f : State → α → State} (step : ∀ s x, R s (f s x)) (l : List α) (s : State) :
    R s (l.foldl f s) := foldl_frame w.refl w.trans step l s

theorem ports {s t : State} (h : OnlyPorts s t) : R s t := w.aside h.aside

/-! ### Orders -/

theorem placeOrder {s : State} {i : SlotNo} {a o : Order} (h : s.order i = some a) (ho : SameTask a o) :
    R s (s.placeOrder i o) :=
  w.trans (w.rewrite (w.refl s) h ho) (w.aside rfl)

theorem removeOrder (s : State) (i : SlotNo) : R s (s.removeOrder i) :=
  w.trans (w.freeSlot s i ⟨(s.slot i).generation + 1, none⟩ rfl) (w.aside rfl)

theorem removeOrders (s : State) (l : List SlotNo) : R s (s.removeOrders l) := w.foldl w.removeOrder l s

theorem edgeCommand {s : State} {i : SlotNo} {a : Order} {l : LineNo} (h : s.order i = some a)
    (hl : named a.body.targets l = true) (cause : EdgeCause) (c : LineCommand) :
    R s (s.edgeCommand cause l c) := by
  cases cause with
  | due => exact w.trans (w.completeGap s _) (w.command (((completeGap_frame s _).order i).trans h) hl c)
  | atPost => exact w.command h hl c
  | atTrigger => exact w.command h hl c

/-- The edge of an order drives its line, takes the order out and tells of it. -/
theorem edge_remove {s t u : State} {i : SlotNo} (h : R s t) (hu : OnlyPorts (t.removeOrder i) u) : R s u :=
  w.trans h (w.trans (w.removeOrder t i) (w.ports hu))

theorem suppress (s : State) (i : SlotNo) (o : Order) : R s (s.suppress i o) :=
  w.edge_remove (w.refl s) (appendNotice_frame _ _ _)

section Edges

variable {s : State} {i : SlotNo} {a o : Order} (hi : s.order i = some a) (ho : SameTask a o)
include hi ho

/-- The edge of an order drives its line, places the order again and tells of it. -/
theorem edge_place {t u : State} {b : Order} (f : OnlyLines s t) (h : R s t) (hb : SameTask o b)
    (hu : OnlyPorts (t.placeOrder i b) u) : R s u :=
  w.trans h (w.trans (w.placeOrder ((f.order i).trans hi) ⟨ho.1.trans hb.1, ho.2.trans hb.2⟩) (w.ports hu))

/-- The command of an order with one target line. -/
theorem lineCommand {l : LineNo} (hl : o.body.targets = lineMask l) (cause : EdgeCause) (c : LineCommand) :
    R s (s.edgeCommand cause l c) :=
  w.edgeCommand hi (by rw [ho.2, hl]; exact named_lineMask_self l) cause c

theorem fireStep {l : LineNo} (hl : o.body.targets = lineMask l) (cause : EdgeCause) (x : StepAction) :
    R s (s.fireStep cause i o l x) := by
  unfold State.fireStep; split
  · exact w.edge_remove (w.lineCommand hi ho hl cause _) (fired_frame _ _ _ _)
  · exact w.suppress s i o

theorem patternCommands {g : GroupNo} {mask : BitVec 4} (hg : o.body.targets = groupMaskLines g mask)
    (cause : EdgeCause) (levels : BitVec 4) : R s (s.patternCommands cause g mask levels) := by
  have key : ∀ (l : List (Fin 4)) (u : State), u.order i = some a → R u (l.foldl (fun s j =>
      if mask.getLsbD j.val then s.edgeCommand cause (groupLine g j) (.level (levels.getLsbD j.val))
      else s) u) := by
    intro l
    induction l with
    | nil => exact fun u _ => w.refl u
    | cons j l ih =>
      intro u hu
      rw [List.foldl_cons]
      split
      · rename_i hj
        have hn : named a.body.targets (groupLine g j) = true := by
          rw [ho.2, hg, named_groupMaskLines]; exact hj
        exact w.trans (w.edgeCommand hu hn cause _) (ih _ (((edgeCommand_frame u cause _ _).order i).trans hu))
      · exact ih u hu
  exact key _ s hi

theorem firePattern {g : GroupNo} {mask : BitVec 4} (hg : o.body.targets = groupMaskLines g mask)
    (cause : EdgeCause) (levels : BitVec 4) : R s (s.firePattern cause i o g mask levels) := by
  unfold State.firePattern; split
  · exact w.edge_remove (w.patternCommands hi ho hg cause levels) (fired_frame _ _ _ _)
  · exact w.suppress s i o

theorem firePulseLeading {l : LineNo} (hl : o.body.targets = lineMask l) (cause : EdgeCause) (x : Span) :
    R s (s.firePulseLeading cause i o l x) := by
  unfold State.firePulseLeading; split
  · exact w.edge_place hi ho (edgeCommand_frame s cause l _) (w.lineCommand hi ho hl cause _)
      (by exact ⟨rfl, rfl⟩) (fired_frame _ _ _ _)
  · exact w.suppress s i o

theorem firePulseTrailing {l : LineNo} (hl : o.body.targets = lineMask l) (cause : EdgeCause) :
    R s (s.firePulseTrailing cause i o l) := by
  unfold State.firePulseTrailing; split
  · exact w.edge_remove (w.lineCommand hi ho hl cause _) (ended_frame _ _ _ _)
  · exact w.suppress s i o

theorem endTrain {l : LineNo} (hl : o.body.targets = lineMask l) (cause : EdgeCause) (r : EndReason) :
    R s (s.endTrain cause i o l r) := by
  unfold State.endTrain; split
  · exact w.edge_remove (w.lineCommand hi ho hl cause _) (ended_frame _ _ _ _)
  · exact w.edge_remove (w.refl s) (appendNotice_frame _ _ _)

theorem widthStep {l : LineNo} (hl : o.body.targets = lineMask l) (cause : EdgeCause) (x : TrainRec) :
    R s (s.widthStep cause i o l x) := by
  unfold State.widthStep; dsimp only; split
  · exact w.edge_place hi ho (edgeCommand_frame s cause l _) (w.lineCommand hi ho hl cause _)
      (by exact ⟨rfl, hl⟩) (fired_frame _ _ _ _)
  · exact w.placeOrder hi ⟨ho.1, ho.2.trans hl⟩

theorem periodStart {l : LineNo} (hl : o.body.targets = lineMask l) (cause : EdgeCause) (x : TrainRec) :
    R s (s.periodStart cause i o l x) := by
  unfold State.periodStart
  split
  · exact w.endTrain hi ho hl cause _
  · split
    · exact w.endTrain hi ho hl cause _
    · exact w.widthStep hi ho hl cause _

theorem trainTrailing {l : LineNo} (hl : o.body.targets = lineMask l) (cause : EdgeCause) (x : TrainRec) :
    R s (s.trainTrailing cause i o l x) :=
  w.edge_place hi ho (edgeCommand_frame s cause l _) (w.lineCommand hi ho hl cause _)
    (by exact ⟨rfl, rfl⟩) (OnlyPorts.refl _)

/-- An edge of an order in slot `i`, for the task of the order which stands there (R73). -/
theorem fireEdge (cause : EdgeCause) : R s (s.fireEdge cause i o) := by
  unfold State.fireEdge
  split
  · rename_i l x hb; exact w.fireStep hi ho (by rw [hb]; rfl) cause x
  · rename_i g mask levels hb; exact w.firePattern hi ho (by rw [hb]; rfl) cause levels
  · rename_i l x hb
    have hl : o.body.targets = lineMask l := by rw [hb]; rfl
    split
    · exact w.firePulseTrailing hi ho hl cause
    all_goals exact w.firePulseLeading hi ho hl cause x
  · rename_i l x hb
    have hl : o.body.targets = lineMask l := by rw [hb]; rfl
    split
    · exact w.trainTrailing hi ho hl cause x
    all_goals exact w.periodStart hi ho hl cause x

end Edges

theorem fireDueSlot (s : State) (i : SlotNo) : R s (s.fireDueSlot i) := by
  unfold State.fireDueSlot
  split
  · rename_i o ho
    split
    · exact w.fireEdge ho (SameTask.refl o) .due
    · exact w.refl s
  · exact w.refl s

theorem fireDue (s : State) : R s s.fireDue := w.foldl w.fireDueSlot _ s

theorem cancelOrder (s : State) (i : SlotNo) : R s (s.cancelOrder i) := by
  unfold State.cancelOrder
  split
  · exact w.refl s
  · rename_i o ho
    split
    · rename_i hl
      exact w.trans (w.command ho (named_targets_of_line hl) _) (w.removeOrder _ i)
    · exact w.removeOrder s i

/-! ### Captures -/

theorem countLost (s : State) (r : StationSet) : R s (s.countLost r) :=
  w.foldl (fun u n => w.aside (t := u.setLost n _) rfl) _ s

theorem makeRoom (s : State) : R s s.makeRoom := by
  unfold State.makeRoom
  split
  · exact w.refl s
  · split
    · exact w.refl s
    · rename_i r rest _
      exact w.trans (w.trans (t := { s with journal := rest }) (w.aside rfl) (w.countLost _ _)) (w.aside rfl)

theorem trigger (e : Time) (s : State) (i : SlotNo) : R s (s.trigger e i) := by
  unfold State.trigger
  split
  · exact w.refl s
  · rename_i o ho
    split
    · split
      · exact w.edge_remove (w.refl s) (appendNotice_frame _ _ _)
      · refine w.trans ?_ (w.fireEdge (order_setOrder _ i _) (SameTask.refl _) _)
        exact w.rewrite (w.fireDue s) ho ⟨rfl, rfl⟩
      · exact w.placeOrder ho ⟨rfl, rfl⟩
      · exact w.placeOrder ho ⟨rfl, rfl⟩
    · exact w.refl s

theorem accept (s : State) (c : InputNo) (d : Direction) (e : Time) : R s (s.accept c d e) := by
  have h1 : R s (s.makeRoom.appendRecord c d e) := w.trans (w.makeRoom s) (w.aside rfl)
  have h2 : ∀ u : State, R u (u.triggerAll c e) := fun u =>
    w.trans (t := u.setArmed c []) (w.aside rfl) (w.foldl (w.trigger e) _ _)
  exact w.trans (w.trans h1 (w.ports (appendNotices_frame _ _ _))) (h2 _)

theorem setInputState (s : State) (c : InputNo) (x : InputState) : R s (s.setInputState c x) := w.aside rfl

theorem transition (s : State) (c : InputNo) (x : InputSettings) (reference level : Level) :
    R s (s.transition c x reference level) := by
  unfold State.transition
  split
  · split
    · exact w.trans (w.setInputState s c _) (w.accept _ _ _ _)
    · exact w.setInputState s c _
  · exact w.setInputState s c _

theorem filterSample (s : State) (c : InputNo) (x : InputSettings) (reference : Level)
    (edge : EdgeInFilter) (level : Level) : R s (s.filterSample c x reference edge level) := by
  unfold State.filterSample
  split
  · split
    · exact w.trans (w.setInputState s c _) (w.accept _ _ _ _)
    · exact w.setInputState s c _
  · split
    · exact w.setInputState s c _
    · exact w.refl s

theorem sample (s : State) (c : InputNo) (level : Level) : R s (s.sample c level) := by
  unfold State.sample
  split
  · split
    · exact w.setInputState s c _
    · split
      · exact w.refl s
      · exact w.transition s c _ _ _
    · exact w.filterSample s c _ _ _ _
    · exact w.refl s
  · exact w.refl s

/-! ### Guards -/

theorem setGuard (s : State) (i : GuardInput) (a : Bool) : R s (s.setGuard i a) := by
  cases i <;> exact w.aside rfl

theorem activate (s : State) (i : GuardInput) : R s (s.activate i) :=
  w.trans (w.trans (w.trans (w.setGuard s i true) (w.foldl w.tripGroup _ _))
    (w.foldl (fun s g => w.ports (tripNotices_frame s g i)) _ _)) (w.aside rfl)

end WorkRelation

/-! ### Every step -/

/-- A predicate that every taking of a request and every event of the part keeps. -/
structure KeptBySteps (P : State → Prop) : Prop extends KeptByTakings P where
  pending : ∀ s l, P s → P (s.setPending l)
  fireDue : ∀ s, P s → P s.fireDue
  completeGap : ∀ s k, P s → P (s.completeGap k)
  sample : ∀ s c level, P s → P (s.sample c level)
  activate : ∀ s i, P s → P (s.activate i)
  setGuard : ∀ s i a, P s → P (s.setGuard i a)
  expireWaits : ∀ s, P s → P s.expireWaits
  markEdge : ∀ s, P s → P s.markEdge
  armExpiry : ∀ s, P s → P s.armExpiry
  advance : ∀ s, P s → P s.advance
  leaseUnitEnds : ∀ s, P s → P s.leaseUnitEnds
  armUnitEnds : ∀ s, P s → P s.armUnitEnds
  breakSession : ∀ s p, P s → P (s.breakSession p)
  inPowerOnReset : ∀ s, P s → P s.inPowerOnReset
  powerOn : ∀ s a b x y, P s →
    P { State.powerOn a b x y with pending := s.pending, freeChoices := s.freeChoices }

/-- A predicate that each step of a fold keeps is kept by the fold. -/
theorem foldl_kept {α : Type} {P : State → Prop} {f : State → α → State} (step : ∀ s x, P s → P (f s x)) :
    ∀ (l : List α) (s : State), P s → P (l.foldl f s)
  | [], _, h => h
  | x :: l, s, h => foldl_kept step l (f s x) (step s x h)

namespace KeptBySteps

variable {P : State → Prop} (k : KeptBySteps P)
include k

theorem closeFilter (s : State) (c : InputNo) (h : P s) : P (s.closeFilter c) := by
  unfold State.closeFilter; split
  · exact k.sample s c _ h
  · exact h

theorem tick (s : State) (h : P s) : P s.tick := by
  unfold State.tick; split
  · refine k.advance _ (foldl_kept k.closeFilter _ _ ?_)
    exact foldl_kept k.completeGap _ _ (k.fireDue s h)
  · exact h

theorem expireOwed (s : State) (h : P s) : P s.expireOwed :=
  foldl_kept k.lapse _ _ (k.expireWaits _ (k.armExpiry s h))

theorem meetBoundary (s : State) (h : P s) : P s.meetBoundary := by
  have hs := k.serveDue (k.leaseUnitEnds _ (k.expireOwed s h))
  unfold State.meetBoundary
  dsimp only
  split
  · exact k.armUnitEnds _ hs
  · exact hs

omit k in
theorem working {s t u : State} (h : working s u = .next t) (hs : P s) (hu : P u) : P t := by
  cases h
  split
  · exact hs
  · exact hu

/-- A command that requests come before keeps what its own work keeps. -/
theorem acting {s t : State} {f : State → State} (h : acting s f = .next t) (hs : P s)
    (hf : ∀ u, P u → P (f u)) : P t := working h hs (hf _ (k.takeDue hs))

/-- A record written at a port, where the event occurs. -/
theorem setPort (s : State) (p : StationNo) (r : PortRec) (h : P s) : P (s.setPort p r) :=
  k.ports (setPort_frame s p r) h

/-- Every command keeps it. -/
theorem exec {c : Instr} {s t : State} (h : exec c s = .next t) (hs : P s) : P t := by
  cases hc : requestRow c with
  | some x =>
    rw [exec_requestRow hc] at h
    cases h
    exact k.takeRow hc hs
  | none =>
    cases c with
    | frameComplete p data =>
      simp only [Machine.exec, execFrameComplete] at h
      refine k.acting h hs fun u hu => ?_
      split
      · exact k.setPort u p _ hu
      · exact hu
    | frameEndEarly p data marker stop =>
      simp only [Machine.exec, execFrameEndEarly] at h
      refine k.acting h hs fun u hu => ?_
      split
      · exact k.setPort u p _ hu
      · exact hu
    | characterReceived p data marker stop =>
      simp only [Machine.exec, execCharacterReceived] at h
      refine k.acting h hs fun u hu => ?_
      split
      · exact hu
      · exact k.setPort u p _ hu
    | lineBreak p =>
      simp only [Machine.exec, execLineBreak] at h
      refine working h hs ?_
      split
      · exact hs
      · exact k.setPort _ p _ (k.breakSession s p hs)
    | breakEnd p =>
      simp only [Machine.exec, execBreakEnd] at h
      refine k.acting h hs fun u hu => ?_
      split
      · exact k.setPort u p _ hu
      · exact hu
    | transmitEnd p =>
      simp only [Machine.exec, execTransmitEnd] at h
      refine k.acting h hs fun u hu => ?_
      split
      · exact hu
      · exact k.ports (endTransmission_frame u p) hu
    | tick =>
      simp only [Machine.exec, execTick] at h
      exact k.acting h hs fun u hu => k.tick _ (k.expireOwed u hu)
    | firing =>
      simp only [Machine.exec, execFiring] at h
      refine k.acting h hs fun u hu => ?_
      split
      · exact k.fireDue u hu
      · exact hu
    | gapCompletion j =>
      simp only [Machine.exec, execGapCompletion] at h
      refine k.acting h hs fun u hu => ?_
      split
      · exact k.completeGap u j hu
      · exact hu
    | markRisingEdge =>
      simp only [Machine.exec, execMarkRisingEdge] at h
      exact k.acting h hs k.markEdge
    | armTimerExpiry =>
      simp only [Machine.exec, execArmTimerExpiry] at h
      exact k.acting h hs k.armExpiry
    | leaseBoundary =>
      simp only [Machine.exec, execLeaseBoundary] at h
      exact working h hs (k.meetBoundary s hs)
    | leaseExpiry n =>
      simp only [Machine.exec, execLeaseExpiry] at h
      exact working h hs (k.lapse s n hs)
    | waitExpiry =>
      simp only [Machine.exec, execWaitExpiry] at h
      exact k.acting h hs k.expireWaits
    | guardActivation i =>
      simp only [Machine.exec, execGuardActivation] at h
      refine k.acting h hs fun u hu => ?_
      split
      · exact hu
      · exact k.activate u i hu
    | guardDeactivation i =>
      simp only [Machine.exec, execGuardDeactivation] at h
      exact k.acting h hs fun u hu => k.setGuard u i false hu
    | captureEdge i level =>
      simp only [Machine.exec, execCaptureEdge] at h
      exact k.acting h hs fun u hu => k.sample u i level hu
    | filterClose i level =>
      simp only [Machine.exec, execFilterClose] at h
      refine k.acting h hs fun u hu => ?_
      split
      · exact k.sample u i level hu
      · exact hu
    | resetBegin =>
      simp only [Machine.exec, execResetBegin] at h
      cases h
      exact k.inPowerOnReset s hs
    | powerOnResetEnd a b x y =>
      simp only [Machine.exec, execPowerOnResetEnd] at h
      cases h
      split
      · exact k.powerOn s a b x y hs
      · exact hs
    | _ => cases hc

/-- Every step keeps it. -/
theorem step {s t : State} (h : step s = .next t) (hs : P s) : P t := by
  unfold Machine.step at h
  split at h
  · exact k.acting h hs fun u hu => k.ports (characterTime_frame _) (k.expireOwed u hu)
  · exact k.exec h (k.pending s _ hs)

end KeptBySteps

end Sys2Proof.Machine
end

section
/-! The laws that tie claims, orders and pairs together, and the work that keeps them. `ClaimTable` is the claim law
without the sessions; `Holding` says that no claim is granted or given up; `Keeps` adds the law of pairs. -/

namespace Sys2Proof.Machine

/-! ### The claim table -/

/-- The claim law, the sessions apart (R36, R37): each claim names a line and has an id of its own, not 0; and the
holder field of a line names the HELD claim that names the line. -/
structure ClaimTable (s : State) : Prop where
  named : ∀ c ∈ s.claims, c.lines ≠ 0 ∧ c.id ≠ 0
  ids : (s.claims.map (fun c => c.id)).Nodup
  holder : ∀ c ∈ s.held, ∀ l, Machine.named c.lines l = true → (s.line l).holder = some c.id
  held : ∀ l id, (s.line l).holder = some id → ∃ c ∈ s.held, c.id = id ∧ Machine.named c.lines l = true

theorem claimLaw_iff (s : State) :
    s.claimLaw ↔ ClaimTable s ∧ ∀ c ∈ s.claims, s.isBound c.station = true :=
  ⟨fun ⟨h1, h2, h3, h4⟩ =>
      ⟨⟨fun c hc => ⟨(h1 c hc).1, (h1 c hc).2.1⟩, h2, h3, h4⟩, fun c hc => (h1 c hc).2.2⟩,
    fun ⟨h, hb⟩ => ⟨fun c hc => ⟨(h.named c hc).1, (h.named c hc).2, hb c hc⟩, h.ids, h.holder, h.held⟩⟩

theorem mem_claims_of_held {s : State} {c : Claim} (h : c ∈ s.held) : c ∈ s.claims :=
  List.mem_append_left _ h

section Table

variable {s : State} (h : ClaimTable s)
include h

/-- A HELD claim is the only one with its id. -/
theorem ClaimTable.eq_of_id {c d : Claim} (hc : c ∈ s.claims) (hd : d ∈ s.claims) (e : c.id = d.id) : c = d :=
  List.inj_on_of_nodup_map h.ids hc hd e

/-- The claim that an id names. -/
theorem ClaimTable.heldClaim {c : Claim} (hc : c ∈ s.held) : s.heldClaim c.id = some c := by
  unfold State.heldClaim
  cases hf : s.held.find? (fun x => x.id == c.id) with
  | none => exact absurd (List.find?_eq_none.mp hf c hc) (by simp)
  | some d =>
    have he : d.id = c.id := by simpa using List.find?_some hf
    rw [h.eq_of_id (mem_claims_of_held (List.mem_of_find?_eq_some hf)) (mem_claims_of_held hc) he]

/-- A station holds the lines that its HELD claims name (R19). -/
theorem ClaimTable.holds_iff (n : StationNo) (l : LineNo) :
    s.holds n l = true ↔ ∃ c ∈ s.held, c.station = n ∧ Machine.named c.lines l = true := by
  have hs : ∀ c ∈ s.held, Machine.named c.lines l = true → s.holderStation l = some c.station := by
    intro c hc hl
    unfold State.holderStation
    rw [h.holder c hc l hl]
    exact congrArg (Option.map fun x => x.station) (h.heldClaim hc)
  constructor
  · intro hn
    cases hh : (s.line l).holder with
    | none => simp [State.holds, State.holderStation, hh] at hn
    | some id =>
      obtain ⟨c, hc, -, hl⟩ := h.held l id hh
      refine ⟨c, hc, ?_, hl⟩
      simpa [State.holds, hs c hc hl] using hn
  · rintro ⟨c, hc, rfl, hl⟩
    simp [State.holds, hs c hc hl]

end Table

/-- No two stations hold one line. -/
theorem holds_unique {s : State} {m n : StationNo} {l : LineNo} (hm : s.holds m l = true)
    (hn : s.holds n l = true) : m = n := by
  simp only [State.holds, beq_iff_eq] at hm hn
  rw [hm] at hn
  exact Option.some.inj hn

/-- The waiting list's bounds read its claims alone. -/
theorem waitLaw_iff (s : State) : s.waitLaw ↔ (s.waiting.map (fun w => w.claim)).length ≤ 8 ∧
    ∀ n, ((s.waiting.map (fun w => w.claim)).filter (fun c => c.station == n)).length ≤ 2 := by
  simp only [State.waitLaw, List.length_map, List.filter_map, Function.comp_def]

/-- A waiting list whose claims were on the list before keeps its bounds (R42). -/
theorem waitLaw_of_sublist {s t : State} (h : s.waitLaw)
    (hw : (t.waiting.map (fun w => w.claim)).Sublist (s.waiting.map (fun w => w.claim))) : t.waitLaw := by
  rw [waitLaw_iff] at h ⊢
  exact ⟨hw.length_le.trans h.1, fun n => (hw.filter _).length_le.trans (h.2 n)⟩

/-! ### Work that grants nothing and gives up nothing -/

/-- The laws of claims, of the waiting list and of orders. -/
abbrev State.holdingLaws (s : State) : Prop := s.claimLaw ∧ s.waitLaw ∧ s.orderLaw

/-- No claim is granted or given up, no session ends, no pair is bound, and every order was there for its task; waiting
claims may leave. -/
structure Holding (s t : State) : Prop where
  held : t.held = s.held
  waiting : (t.waiting.map (fun w => w.claim)).Sublist (s.waiting.map (fun w => w.claim))
  holder : ∀ l, (t.line l).holder = (s.line l).holder
  bound : ∀ n, s.isBound n = true → t.isBound n = true
  pairBound : ∀ k, t.pairBound k = true → s.pairBound k = true
  orders : ∀ i o, t.order i = some o → ∃ a, s.order i = some a ∧ SameTask a o

theorem Holding.refl (s : State) : Holding s s :=
  ⟨rfl, List.Sublist.refl _, fun _ => rfl, fun _ h => h, fun _ h => h, fun _ o h => ⟨o, h, SameTask.refl o⟩⟩

theorem Holding.trans {s t u : State} (a : Holding s t) (b : Holding t u) : Holding s u where
  held := b.held.trans a.held
  waiting := b.waiting.trans a.waiting
  holder l := (b.holder l).trans (a.holder l)
  bound n h := b.bound n (a.bound n h)
  pairBound k h := a.pairBound k (b.pairBound k h)
  orders i o h := by
    obtain ⟨x, hx, ex⟩ := b.orders i o h
    obtain ⟨y, hy, ey⟩ := a.orders i x hx
    exact ⟨y, hy, ey.1.trans ex.1, ey.2.trans ex.2⟩

/-- Claims, lines, pairs, slots and sessions stand. -/
theorem Holding.of_same {s t : State} (hh : t.held = s.held) (hw : t.waiting = s.waiting)
    (hl : t.lines = s.lines) (hp : t.pairs = s.pairs) (hs : t.slots = s.slots)
    (hst : t.stations = s.stations) : Holding s t where
  held := hh
  waiting := by rw [hw]
  holder l := by simp only [State.line, hl]
  bound n h := by simpa only [State.isBound, State.station, hst] using h
  pairBound k h := by simpa only [State.pairBound, State.pair, hp] using h
  orders i o h := ⟨o, by simpa only [State.order, State.slot, hs] using h, SameTask.refl o⟩

section Holding

variable {s t : State} (a : Holding s t)
include a

theorem Holding.holds (n : StationNo) (l : LineNo) : t.holds n l = s.holds n l := by
  simp only [State.holds, State.holderStation, State.heldClaim, a.holder, a.held]

theorem Holding.claims : t.claims.Sublist s.claims := by
  simp only [State.claims, a.held]
  exact a.waiting.append_left _

theorem Holding.table (h : ClaimTable s) : ClaimTable t where
  named c hc := h.named c (a.claims.subset hc)
  ids := h.ids.sublist (a.claims.map _)
  holder c hc l hl := by rw [a.holder]; exact h.holder c (a.held ▸ hc) l hl
  held l id hl := by rw [a.held]; exact h.held l id (by rwa [← a.holder])

theorem Holding.claimLaw (h : s.claimLaw) : t.claimLaw := by
  rw [claimLaw_iff] at h ⊢
  exact ⟨a.table h.1, fun c hc => a.bound _ (h.2 c (a.claims.subset hc))⟩

theorem Holding.orderLaw (h : s.orderLaw) : t.orderLaw := by
  intro i o ho
  obtain ⟨x, hx, est, etg⟩ := a.orders i o ho
  obtain ⟨hb, hl, hp⟩ := h i x hx
  rw [est] at hb hl
  rw [etg] at hl hp
  exact ⟨a.bound _ hb, fun l hn => by rw [a.holds]; exact hl l hn, fun k hk => hp k (a.pairBound k hk)⟩

theorem Holding.laws (h : s.holdingLaws) : t.holdingLaws :=
  ⟨a.claimLaw h.1, waitLaw_of_sublist h.2.1 a.waiting, a.orderLaw h.2.2⟩

end Holding

/-! ### The law of pairs, pair by pair -/

/-- The state of pair `k` fixes its two lines, and its two safe levels are not both ASSERTED (Table 2-4, R27). -/
def State.pairFixed (s : State) (k : PairNo) : Prop :=
  ¬((s.line (primary k)).safe = true ∧ (s.line (partner k)).safe = true) ∧
    (s.line (primary k)).asserted = ((s.pair k).state == .primaryOn) ∧
    (s.line (partner k)).asserted = ((s.pair k).state == .partnerOn)

theorem pairBound_iff (s : State) (k : PairNo) : s.pairBound k = true ↔ (s.pair k).state ≠ .unbound := by
  simp [State.pairBound]

theorem pairLaw_iff (s : State) : s.pairLaw ↔ ∀ k, s.pairBound k = true → s.pairFixed k := by
  refine forall_congr' fun k => ?_
  rw [pairBound_iff, State.pairFixed]
  cases (s.pair k).state <;> simp

/-- The law of pairs after a change in one pair. -/
theorem pairLaw_update {s t : State} (k : PairNo) (h : s.pairLaw)
    (hl : ∀ l, pairOf l ≠ k → (t.line l).safe = (s.line l).safe ∧ (t.line l).asserted = (s.line l).asserted)
    (hp : ∀ j, j ≠ k → (t.pair j).state = (s.pair j).state)
    (hk : t.pairBound k = true → t.pairFixed k) : t.pairLaw := by
  rw [pairLaw_iff] at h ⊢
  intro j hj
  by_cases e : j = k
  · subst e; exact hk hj
  · have h1 := hl (primary j) (by rwa [pairOf_primary])
    have h2 := hl (partner j) (by rwa [pairOf_partner])
    have hs := h j (by rw [pairBound_iff] at hj ⊢; rwa [hp j e] at hj)
    unfold State.pairFixed at hs ⊢
    rwa [h1.1, h1.2, h2.1, h2.2, hp j e]

/-- A change that the law of pairs does not read. -/
theorem pairLaw_congr {s t : State} (h : s.pairLaw)
    (hl : ∀ l, (t.line l).safe = (s.line l).safe ∧ (t.line l).asserted = (s.line l).asserted)
    (hp : ∀ k, (t.pair k).state = (s.pair k).state) : t.pairLaw := by
  rw [pairLaw_iff] at h ⊢
  intro k hk
  have hs := h k (by rw [pairBound_iff] at hk ⊢; rwa [hp] at hk)
  unfold State.pairFixed at hs ⊢
  rwa [(hl _).1, (hl _).2, (hl _).1, (hl _).2, hp]

/-! ### Work that keeps the laws -/

/-- Claims and orders stand as `Holding` says, and the law of pairs is kept. -/
structure Keeps (s t : State) : Prop extends Holding s t where
  pairs : s.orderLaw → s.pairLaw → t.pairLaw

theorem Keeps.refl (s : State) : Keeps s s := ⟨Holding.refl s, fun _ h => h⟩

theorem Keeps.trans {s t u : State} (a : Keeps s t) (b : Keeps t u) : Keeps s u :=
  ⟨a.toHolding.trans b.toHolding, fun h hp => b.pairs (a.orderLaw h) (a.pairs h hp)⟩

theorem Keeps.of_same {s t : State} (hh : t.held = s.held) (hw : t.waiting = s.waiting)
    (hl : t.lines = s.lines) (hp : t.pairs = s.pairs) (hs : t.slots = s.slots)
    (hst : t.stations = s.stations) : Keeps s t where
  toHolding := Holding.of_same hh hw hl hp hs hst
  pairs _ h := pairLaw_congr h (fun l => by simp only [State.line, hl, and_self])
    fun k => by simp only [State.pair, hp]

/-! ### Commands and pairs -/

theorem isPrimary_iff (l : LineNo) : isPrimary l = true ↔ l = primary (pairOf l) := by
  simp only [isPrimary, primary, pairOf, Fin.ext_iff, beq_iff_eq]; omega

/-- What a command can do: nothing, a line set outside the primaries of bound pairs, or a bound pair turned. -/
theorem command_cases (s : State) (l : LineNo) (c : LineCommand) :
    s.command l c = s ∨
      (¬(l = primary (pairOf l) ∧ s.pairBound (pairOf l) = true) ∧ ∃ a, s.command l c = s.setAsserted l a) ∨
      (s.pairBound (pairOf l) = true ∧ (s.pair (pairOf l)).state ≠ .primaryOn ∧
        s.command l c = s.turnToPrimary (pairOf l)) ∨
      (s.pairBound (pairOf l) = true ∧ (s.pair (pairOf l)).state ≠ .partnerOn ∧
        s.command l c = s.turnToPartner (pairOf l)) := by
  have hpri : ∀ k, s.pairAssert k = s ∨
      (s.pairBound k = true ∧ (s.pair k).state ≠ .primaryOn ∧ s.pairAssert k = s.turnToPrimary k) := by
    intro k
    unfold State.pairAssert
    rw [pairBound_iff]
    cases (s.pair k).state <;> simp
  have hpar : ∀ k, s.pairDeassert k = s ∨
      (s.pairBound k = true ∧ (s.pair k).state ≠ .partnerOn ∧ s.pairDeassert k = s.turnToPartner k) := by
    intro k
    unfold State.pairDeassert
    rw [pairBound_iff]
    cases (s.pair k).state <;> simp
  have hpair : ∀ k, s.pairCommand k c = s.pairAssert k ∨ s.pairCommand k c = s.pairDeassert k := by
    intro k
    cases c with
    | assert => exact .inl rfl
    | deassert => exact .inr rfl
    | invert => rw [State.pairCommand]; split <;> simp
    | level a => rw [State.pairCommand]; split <;> simp
  unfold State.command
  split
  · split
    · rcases hpair (pairOf l) with e | e <;> rw [e]
      · exact (hpri _).imp id (fun h => .inr (.inl h))
      · exact (hpar _).imp id (fun h => .inr (.inr h))
    · rename_i hn
      rw [Bool.and_eq_true, isPrimary_iff] at hn
      exact .inr (.inl ⟨hn, _, rfl⟩)
  · exact .inl rfl

@[simp] theorem setAsserted_safe (s : State) (l : LineNo) (a : Bool) (x : LineNo) :
    ((s.setAsserted l a).line x).safe = (s.line x).safe := by
  rw [setAsserted_line]; split <;> simp_all

theorem holding_setAsserted (s : State) (l : LineNo) (a : Bool) : Holding s (s.setAsserted l a) :=
  { Holding.refl s with
    held := rfl
    holder := fun x => by rw [setAsserted_line]; split <;> simp_all }

/-- A bound pair stays bound, or a pair becomes UNBOUND. -/
theorem holding_setPairState (s : State) (k : PairNo) (x : PairState)
    (h : x = .unbound ∨ s.pairBound k = true) : Holding s (s.setPairState k x) :=
  { Holding.refl s with
    held := rfl
    pairBound := fun j hj => by
      rw [pairBound_iff, setPairState_pair] at hj
      split at hj
      · rename_i e; subst e; exact h.resolve_left hj
      · rwa [pairBound_iff] }

/-- A line set, which is in no bound pair. -/
theorem keeps_setAsserted {s : State} {l : LineNo} (h : s.pairBound (pairOf l) = false) (a : Bool) :
    Keeps s (s.setAsserted l a) where
  toHolding := holding_setAsserted s l a
  pairs _ hp := by
    refine pairLaw_update (pairOf l) hp (fun x hx => ?_) (fun _ _ => rfl) fun hb => ?_
    · rw [setAsserted_line, if_neg fun e => hx (by rw [e])]; exact ⟨rfl, rfl⟩
    · exact absurd (h.symm.trans hb) nofun

/-- A bound pair turned, with what it leaves on its two lines. -/
theorem pairLaw_turned {s t : State} {k : PairNo} (hp : s.pairLaw) (hb : s.pairBound k = true)
    (hl : ∀ l, (t.line l).safe = (s.line l).safe)
    (ho : ∀ l, pairOf l ≠ k → (t.line l).asserted = (s.line l).asserted)
    (hj : ∀ j, j ≠ k → (t.pair j).state = (s.pair j).state)
    (h1 : (t.line (primary k)).asserted = ((t.pair k).state == .primaryOn))
    (h2 : (t.line (partner k)).asserted = ((t.pair k).state == .partnerOn)) : t.pairLaw := by
  refine pairLaw_update k hp (fun l hk => ⟨hl l, ho l hk⟩) hj fun _ => ⟨?_, h1, h2⟩
  rw [hl (primary k), hl (partner k)]
  exact ((pairLaw_iff s).mp hp k hb).1

theorem ne_primary_of_pair {l : LineNo} {k : PairNo} (h : pairOf l ≠ k) : l ≠ primary k :=
  fun e => h (by rw [e, pairOf_primary])

theorem ne_partner_of_pair {l : LineNo} {k : PairNo} (h : pairOf l ≠ k) : l ≠ partner k :=
  fun e => h (by rw [e, pairOf_partner])

/-- A bound pair turned from its side `off` to its side `on`, at once or through a gap (R23, R24). -/
theorem keeps_turn {s : State} {k : PairNo} {off on : LineNo} {done going : PairState}
    (hb : s.pairBound k = true)
    (h : (off = partner k ∧ on = primary k ∧ done = .primaryOn) ∨
      (off = primary k ∧ on = partner k ∧ done = .partnerOn))
    (hs : (s.pair k).state ≠ done) (hg : going ≠ .primaryOn ∧ going ≠ .partnerOn) :
    Keeps s (((s.setAsserted off false).setAsserted on true).setPairState k done) ∧
      Keeps s ((s.setAsserted off false).setPairState k going) := by
  have hpp := primary_ne_partner k
  constructor
  · refine ⟨((holding_setAsserted s _ _).trans (holding_setAsserted _ _ _)).trans
      (holding_setPairState _ k _ (.inr hb)), fun _ hp => ?_⟩
    refine pairLaw_turned hp hb (fun l => by simp) (fun l hl => ?_) (fun j hj => ?_) ?_ ?_
    · have h1 := ne_primary_of_pair hl
      have h2 := ne_partner_of_pair hl
      rcases h with ⟨rfl, rfl, -⟩ | ⟨rfl, rfl, -⟩ <;> simp [setAsserted_line, h1, h2]
    · simp [setPairState_pair, hj]
    · rcases h with ⟨rfl, rfl, rfl⟩ | ⟨rfl, rfl, rfl⟩ <;> simp [setAsserted_line, setPairState_pair, hpp]
    · rcases h with ⟨rfl, rfl, rfl⟩ | ⟨rfl, rfl, rfl⟩ <;> simp [setAsserted_line, setPairState_pair, hpp.symm]
  · refine ⟨(holding_setAsserted s _ _).trans (holding_setPairState _ k _ (.inr hb)), fun _ hp => ?_⟩
    obtain ⟨-, hk1, hk2⟩ := (pairLaw_iff s).mp hp k hb
    refine pairLaw_turned hp hb (fun l => by simp) (fun l hl => ?_) (fun j hj => ?_) ?_ ?_
    · have h1 := ne_primary_of_pair hl
      have h2 := ne_partner_of_pair hl
      rcases h with ⟨rfl, rfl, -⟩ | ⟨rfl, rfl, -⟩ <;> simp [setAsserted_line, h1, h2]
    · simp [setPairState_pair, hj]
    · rcases h with ⟨rfl, rfl, rfl⟩ | ⟨rfl, rfl, rfl⟩ <;>
        simp [setAsserted_line, setPairState_pair, hpp, hk1, hs, hg.1]
    · rcases h with ⟨rfl, rfl, rfl⟩ | ⟨rfl, rfl, rfl⟩ <;>
        simp [setAsserted_line, setPairState_pair, hpp.symm, hk2, hs, hg.2]

theorem keeps_turnToPrimary {s : State} {k : PairNo} (hb : s.pairBound k = true)
    (hs : (s.pair k).state ≠ .primaryOn) : Keeps s (s.turnToPrimary k) := by
  obtain ⟨h1, h2⟩ := keeps_turn (going := .gapToPrimary (s.tb.t + (s.pair k).gap.setWidth 32)) hb
    (.inl ⟨rfl, rfl, rfl⟩) hs ⟨nofun, nofun⟩
  unfold State.turnToPrimary; split
  · exact h1
  · exact h2

theorem keeps_turnToPartner {s : State} {k : PairNo} (hb : s.pairBound k = true)
    (hs : (s.pair k).state ≠ .partnerOn) : Keeps s (s.turnToPartner k) := by
  obtain ⟨h1, h2⟩ := keeps_turn (going := .gapToPartner (s.tb.t + (s.pair k).gap.setWidth 32)) hb
    (.inr ⟨rfl, rfl, rfl⟩) hs ⟨nofun, nofun⟩
  unfold State.turnToPartner; split
  · exact h1
  · exact h2

/-- A command to a target line of an order: by the law of orders it is not the partner of a bound pair (R66). -/
theorem keeps_command {s : State} {i : SlotNo} {a : Order} {l : LineNo} (h : s.order i = some a)
    (hl : named a.body.targets l = true) (c : LineCommand) : Keeps s (s.command l c) := by
  have hh : Holding s (s.command l c) := by
    rcases command_cases s l c with e | ⟨-, x, e⟩ | ⟨hb, hs, e⟩ | ⟨hb, hs, e⟩ <;> rw [e]
    · exact Holding.refl s
    · exact holding_setAsserted s l x
    · exact (keeps_turnToPrimary hb hs).toHolding
    · exact (keeps_turnToPartner hb hs).toHolding
  refine ⟨hh, fun ho hp => ?_⟩
  rcases command_cases s l c with e | ⟨hn, x, e⟩ | ⟨hb, hs, e⟩ | ⟨hb, hs, e⟩ <;> rw [e]
  · exact hp
  · refine (keeps_setAsserted ?_ x).pairs ho hp
    by_contra hb
    rw [Bool.not_eq_false] at hb
    rcases eq_primary_or_partner l with hl' | hl'
    · exact hn ⟨hl', hb⟩
    · have := (ho i a h).2.2 _ hb
      rw [← hl', hl] at this; cases this
  · exact (keeps_turnToPrimary hb hs).pairs ho hp
  · exact (keeps_turnToPartner hb hs).pairs ho hp

/-- A line of a pair in a gap is asserted and the pair enters its ON state (R25). -/
theorem keeps_completed {s : State} {k : PairNo} {on : LineNo} {done : PairState}
    (hb : (s.pair k).state.inGap = true)
    (h : (on = primary k ∧ done = .primaryOn) ∨ (on = partner k ∧ done = .partnerOn)) :
    Keeps s ((s.setAsserted on true).setPairState k done) := by
  have hpp := primary_ne_partner k
  have hb' : s.pairBound k = true := by
    rw [pairBound_iff]; intro e; rw [e] at hb; cases hb
  refine ⟨(holding_setAsserted s _ _).trans (holding_setPairState _ k _ (.inr hb')), fun _ hp => ?_⟩
  obtain ⟨-, hk1, hk2⟩ := (pairLaw_iff s).mp hp k hb'
  have hk : (s.pair k).state ≠ .primaryOn ∧ (s.pair k).state ≠ .partnerOn := by
    constructor <;> (intro e; rw [e] at hb; cases hb)
  refine pairLaw_turned hp hb' (fun l => by simp) (fun l hl => ?_) (fun j hj => ?_) ?_ ?_
  · have h1 := ne_primary_of_pair hl
    have h2 := ne_partner_of_pair hl
    rcases h with ⟨rfl, -⟩ | ⟨rfl, -⟩ <;> simp [setAsserted_line, h1, h2]
  · simp [setPairState_pair, hj]
  · rcases h with ⟨rfl, rfl⟩ | ⟨rfl, rfl⟩ <;> simp [setAsserted_line, setPairState_pair, hpp, hk1, hk.1]
  · rcases h with ⟨rfl, rfl⟩ | ⟨rfl, rfl⟩ <;> simp [setAsserted_line, setPairState_pair, hpp.symm, hk2, hk.2]

theorem keeps_completeGap (s : State) (k : PairNo) : Keeps s (s.completeGap k) := by
  unfold State.completeGap
  split
  · rename_i h
    split
    · exact keeps_completed (by rw [h]; rfl) (.inl ⟨rfl, rfl⟩)
    · exact Keeps.refl s
  · rename_i h
    split
    · exact keeps_completed (by rw [h]; rfl) (.inr ⟨rfl, rfl⟩)
    · exact Keeps.refl s
  all_goals exact Keeps.refl s

/-! ### Safe states and trips -/

/-- The states that the two levels give to a pair which are not both ASSERTED (R22). -/
theorem levelState_fixes {a b : Bool} (h : ¬(a = true ∧ b = true)) :
    a = (levelState a b == .primaryOn) ∧ b = (levelState a b == .partnerOn) := by
  cases a <;> cases b <;> simp_all [levelState]

@[simp] theorem toSafe_safe (s : State) (l x : LineNo) :
    ((s.toSafe l).line x).safe = (s.line x).safe := by
  rw [toSafe_line]; split <;> rfl

/-- A line set to safe takes a bound pair to its safe state (R27). -/
theorem pairLaw_toSafe {s : State} (hp : s.pairLaw) (l : LineNo) : (s.toSafe l).pairLaw := by
  refine pairLaw_update (pairOf l) hp (fun x hx => ⟨toSafe_safe s l x, ?_⟩) (fun j hj => ?_) fun hb => ?_
  · rw [toSafe_line, if_neg]
    rintro (rfl | ⟨-, e⟩)
    · exact hx rfl
    · exact hx e
  · rw [toSafe_pair, if_neg fun e => hj e.2]
  · rw [toSafe_pairBound] at hb
    obtain ⟨hs, -, -⟩ := (pairLaw_iff s).mp hp _ hb
    unfold State.pairFixed
    rw [toSafe_safe, toSafe_safe, toSafe_pair, if_pos ⟨hb, rfl⟩, toSafe_line, toSafe_line,
      if_pos (.inr ⟨hb, pairOf_primary _⟩), if_pos (.inr ⟨hb, pairOf_partner _⟩)]
    exact ⟨hs, levelState_fixes hs⟩

/-- A line set to safe (R27, R30). -/
theorem keeps_toSafe (s : State) (l : LineNo) : Keeps s (s.toSafe l) where
  held := by rw [(toSafe_frame s l).held]
  waiting := by rw [(toSafe_frame s l).waiting]
  holder x := by rw [toSafe_line]; split <;> rfl
  bound n h := by simpa only [State.isBound, (toSafe_frame s l).station] using h
  pairBound k h := by rwa [toSafe_pairBound] at h
  orders i o h := ⟨o, by rwa [(toSafe_frame s l).order] at h, SameTask.refl o⟩
  pairs _ hp := pairLaw_toSafe hp l

theorem keeps_foldl {α : Type} {f : State → α → State} (step : ∀ s x, Keeps s (f s x)) (l : List α)
    (s : State) : Keeps s (l.foldl f s) := foldl_frame Keeps.refl Keeps.trans step l s

theorem keeps_setGroup (s : State) (g : GroupNo) (r : GroupRec) : Keeps s (s.setGroup g r) :=
  Keeps.of_same rfl rfl rfl rfl rfl rfl

theorem keeps_tripGroup (s : State) (g : GroupNo) : Keeps s (s.tripGroup g) :=
  (keeps_setGroup s g _).trans (keeps_foldl keeps_toSafe _ _)

theorem OnlyAside.keeps {s t : State} (h : OnlyAside s t) : Keeps s t := by
  rw [OnlyAside] at h; rw [h]; exact Keeps.of_same rfl rfl rfl rfl rfl rfl

theorem OnlyPorts.keeps {s t : State} (h : OnlyPorts s t) : Keeps s t := h.aside.keeps

/-! ### Slots -/

/-- A slot written with an order for the task of the one that stood there, or freed. -/
theorem Keeps.setSlot {s t : State} (h : Keeps s t) (i : SlotNo) (x : Slot)
    (hx : ∀ o, x.order = some o → ∃ a, s.order i = some a ∧ SameTask a o) : Keeps s (t.setSlot i x) where
  held := h.held
  waiting := h.waiting
  holder := h.holder
  bound := h.bound
  pairBound := h.pairBound
  orders j o hj := by
    rw [setSlot_order] at hj
    split at hj
    · rename_i e; subst e; exact hx o hj
    · exact h.orders j o hj
  pairs := h.pairs

/-- The part's work keeps the laws. -/
theorem keeps_work : WorkRelation Keeps where
  refl := Keeps.refl
  trans := Keeps.trans
  aside := OnlyAside.keeps
  command := keeps_command
  completeGap := keeps_completeGap
  tripGroup := keeps_tripGroup
  freeSlot s i x hx := (Keeps.refl s).setSlot i x fun o ho => by rw [hx] at ho; cases ho
  rewrite h hi ho := h.setSlot _ _ fun _ e => ⟨_, hi, by cases e; exact ho⟩

end Sys2Proof.Machine
end

section
/-! The claim table's own work: new claims and their ids, grants, claims given up, releases and teardowns, and what each
leaves of the laws of claims and orders. -/

namespace Sys2Proof.Machine

/-! ### New claim ids -/

/-- A mask other than 0 names a line. -/
theorem exists_named {m : LineMask} (h : m ≠ 0) : ∃ l, named m l = true := by
  by_contra hn
  refine h (BitVec.eq_of_getLsbD_eq fun i hi => ?_)
  have := fun e => hn ⟨⟨i, hi⟩, e⟩
  simpa [named] using this

/-- There are at most 16 HELD claims: each names a line, and no two name the same. -/
theorem ClaimTable.held_length {s : State} (h : ClaimTable s) : s.held.length ≤ 16 := by
  have hex : ∀ c : s.held.toFinset, ∃ l, Machine.named c.1.lines l = true := fun c =>
    exists_named (h.named c.1 (mem_claims_of_held (List.mem_toFinset.mp c.2))).1
  choose line hline using hex
  have hinj : Function.Injective line := fun c d e => by
    have hc := List.mem_toFinset.mp c.2
    have hd := List.mem_toFinset.mp d.2
    have h1 := h.holder _ hc _ (hline c)
    rw [e, h.holder _ hd _ (hline d)] at h1
    exact Subtype.ext (h.eq_of_id (mem_claims_of_held hc) (mem_claims_of_held hd) (Option.some.inj h1).symm)
  have hnd : s.held.Nodup := (List.Nodup.of_map _ h.ids).sublist (List.sublist_append_left _ _)
  rw [← List.toFinset_card_of_nodup hnd, ← Fintype.card_coe]
  exact Fintype.card_le_of_injective line hinj

/-- Where the id counter stands `j` steps after an id other than 0: it runs through 1 to 255 (R37). -/
theorem stepForward_iterate {id : Byte} (h : id ≠ 0) (j : Nat) :
    (stepForward^[j] id).toNat = (id.toNat - 1 + j) % 255 + 1 := by
  have h0 : id.toNat ≠ 0 := fun e => h (BitVec.eq_of_toNat_eq e)
  induction j with
  | zero => have := id.isLt; simp; omega
  | succ j ih =>
    rw [Function.iterate_succ_apply']
    generalize stepForward^[j] id = x at ih
    unfold stepForward
    split
    · rename_i e
      rw [e] at ih
      have : (255 : Byte).toNat = 255 := rfl
      have : (1 : Byte).toNat = 1 := rfl
      omega
    · rename_i e
      have hx : x.toNat ≠ 255 := fun e' => e (BitVec.eq_of_toNat_eq e')
      have := x.isLt
      have hadd : (x + 1).toNat = x.toNat + 1 := by
        rw [BitVec.toNat_add]
        have : (1 : Byte).toNat = 1 := rfl
        omega
      omega

/-- The id that a new claim takes is not 0, and no claim has it (R37): there are fewer claims than ids. -/
theorem nextClaimId_fresh {s : State} (h : ClaimTable s) (hw : s.waitLaw) :
    s.nextClaimId ≠ 0 ∧ ∀ c ∈ s.claims, c.id ≠ s.nextClaimId := by
  obtain ⟨n, hn, he, hused, hfree⟩ := idFrom_spec s 254 (stepForward s.claimCounter)
  have h0 := stepForward_ne_zero s.claimCounter
  have hlen : s.claims.length ≤ 24 := by
    have h1 := h.held_length
    have h2 := hw.1
    simp only [State.claims, List.length_append, List.length_map]
    omega
  have hlt : n < 254 := by
    by_contra hge
    have hsub : (List.range n).map (fun j => stepForward^[j] (stepForward s.claimCounter)) ⊆
        s.claims.map (fun c => c.id) := by
      intro x hx
      obtain ⟨j, hj, rfl⟩ := List.mem_map.mp hx
      obtain ⟨c, hc, e⟩ := (claimIdUsed_iff s _).mp (hused j (List.mem_range.mp hj))
      exact List.mem_map.mpr ⟨c, hc, e⟩
    have hnd : ((List.range n).map (fun j => stepForward^[j] (stepForward s.claimCounter))).Nodup := by
      refine List.Nodup.map_on (fun i hi j hj e => ?_) List.nodup_range
      have := congrArg BitVec.toNat e
      rw [stepForward_iterate h0, stepForward_iterate h0] at this
      rw [List.mem_range] at hi hj
      omega
    have := (List.subperm_of_subset hnd hsub).length_le
    rw [List.length_map, List.length_map, List.length_range] at this
    omega
  refine ⟨fun e => ?_, fun c hc e => ?_⟩
  · have := congrArg BitVec.toNat e
    rw [State.nextClaimId, he, stepForward_iterate h0] at this
    cases this
  · have := hfree hlt
    rw [Bool.eq_false_iff] at this
    exact this ((claimIdUsed_iff s _).mpr ⟨c, hc, e⟩)

/-! ### Grants -/

/-- Waiting claims have been granted (R39, R43): claims pass from the waiting list to the HELD claims, and their lines,
free before, take their ids. -/
structure Grants (s t : State) : Prop where
  held : s.held ⊆ t.held
  waiting : t.waiting.Sublist s.waiting
  claims : t.claims.Perm s.claims
  table : ClaimTable s → ClaimTable t
  lines : ∀ l, (t.line l).safe = (s.line l).safe ∧ (t.line l).asserted = (s.line l).asserted
  pairs : t.pairs = s.pairs
  slots : t.slots = s.slots
  stations : t.stations = s.stations

theorem Grants.refl (s : State) : Grants s s :=
  ⟨fun _ h => h, List.Sublist.refl _, List.Perm.refl _, id, fun _ => ⟨rfl, rfl⟩, rfl, rfl, rfl⟩

theorem Grants.trans {s t u : State} (a : Grants s t) (b : Grants t u) : Grants s u where
  held _ h := b.held (a.held h)
  waiting := b.waiting.trans a.waiting
  claims := b.claims.trans a.claims
  table h := b.table (a.table h)
  lines l := ⟨(b.lines l).1.trans (a.lines l).1, (b.lines l).2.trans (a.lines l).2⟩
  pairs := b.pairs.trans a.pairs
  slots := b.slots.trans a.slots
  stations := b.stations.trans a.stations

theorem allFree_iff (s : State) (m : LineMask) :
    s.allFree m = true ↔ ∀ l, named m l = true → (s.line l).holder = none := by
  simp [State.allFree, State.free, mem_linesOf]

/-- One claim is granted (R39, R44). -/
theorem grants_grant {s t : State} {a b : List WaitingClaim} {w : WaitingClaim}
    (hf : s.allFree w.claim.lines = true) (ht : OnlyPorts (s.grant w.claim) t) :
    Grants { s with waiting := a ++ w :: b } { t with waiting := a ++ b } := by
  have hheld : t.held = s.held ++ [w.claim] := by rw [ht.held, grant_eq]
  have hline : ∀ l, t.line l = (s.grant w.claim).line l := ht.line
  have hperm : ({ t with waiting := a ++ b } : State).claims.Perm
      ({ s with waiting := a ++ w :: b } : State).claims := by
    simp only [State.claims, hheld, List.map_append, List.map_cons, List.append_assoc, List.cons_append,
      List.nil_append]
    exact List.Perm.append_left _ List.perm_middle.symm
  rw [allFree_iff] at hf
  refine
    { held := fun c hc => ?_
      waiting := (List.sublist_cons_self w b).append_left a
      claims := hperm
      table := fun h => ⟨fun c hc => h.named c (hperm.subset hc), (hperm.map _).nodup_iff.mpr h.ids,
        fun c hc l hl => ?_, fun l id hl => ?_⟩
      lines := fun l => ?_
      pairs := by exact ht.pairs.trans (by rw [grant_eq])
      slots := by exact ht.slots.trans (by rw [grant_eq])
      stations := by exact ht.stations.trans (by rw [grant_eq]) }
  · show c ∈ t.held
    rw [hheld]; exact List.mem_append_left _ hc
  · show (t.line l).holder = some c.id
    have hc' : c ∈ s.held ∨ c = w.claim := by
      have : c ∈ t.held := hc
      simpa [hheld] using this
    rw [hline, grant_line]
    rcases hc' with hc' | rfl
    · have hh : (s.line l).holder = some c.id := h.holder c hc' l hl
      rw [if_neg fun hn => by rw [hf l hn] at hh; cases hh]
      exact hh
    · rw [if_pos hl]
  · have hl' : (t.line l).holder = some id := hl
    rw [hline, grant_line] at hl'
    suffices ∃ c ∈ t.held, c.id = id ∧ named c.lines l = true from this
    rw [hheld]
    split at hl'
    · rename_i hn
      exact ⟨w.claim, by simp, Option.some.inj hl', hn⟩
    · obtain ⟨c, hc, hid⟩ := h.held l id hl'
      exact ⟨c, List.mem_append_left _ hc, hid⟩
  · show (t.line l).safe = (s.line l).safe ∧ (t.line l).asserted = (s.line l).asserted
    rw [hline, grant_line]; split <;> exact ⟨rfl, rfl⟩

theorem grants_grantWalk : ∀ (todo kept : List WaitingClaim) (s : State),
    Grants { s with waiting := kept ++ todo }
      { (s.grantWalk kept todo).1 with waiting := (s.grantWalk kept todo).2.1 }
  | [], kept, s => by simpa [State.grantWalk] using Grants.refl _
  | w :: rest, kept, s => by
    unfold State.grantWalk
    split
    · rename_i h
      rw [Bool.and_eq_true] at h
      exact (grants_grant h.1 (appendNotice_frame _ _ _)).trans (grants_grantWalk rest kept _)
    · have := grants_grantWalk rest (kept ++ [w]) s
      rwa [List.append_assoc] at this

theorem grants_grantScanFrom : ∀ (fuel : Nat) (s : State), Grants s (s.grantScanFrom fuel)
  | 0, s => Grants.refl s
  | fuel + 1, s => by
    have h : Grants s { (s.grantWalk [] s.waiting).1 with waiting := (s.grantWalk [] s.waiting).2.1 } :=
      grants_grantWalk s.waiting [] s
    unfold State.grantScanFrom
    dsimp only
    split
    · exact h.trans (grants_grantScanFrom fuel _)
    · exact h

theorem grants_grantScan (s : State) : Grants s s.grantScan := grants_grantScanFrom _ s

/-- The law of orders where claims may have been added: what a station held it still holds (R58). -/
theorem orderLaw_of_grown {s t : State} (hs : ClaimTable s) (ht : ClaimTable t) (hh : s.held ⊆ t.held)
    (hst : t.stations = s.stations) (hp : t.pairs = s.pairs) (hsl : t.slots = s.slots) (h : s.orderLaw) :
    t.orderLaw := by
  intro i o ho
  obtain ⟨hb, hl, hk⟩ := h i o (by simpa only [State.order, State.slot, hsl] using ho)
  refine ⟨by simpa only [State.isBound, State.station, hst] using hb, fun l hn => ?_, fun k hb => hk k ?_⟩
  · obtain ⟨c, hc, hcl⟩ := (hs.holds_iff _ l).mp (hl l hn)
    exact (ht.holds_iff _ l).mpr ⟨c, hh hc, hcl⟩
  · simpa only [State.pairBound, State.pair, hp] using hb

theorem Grants.laws {s t : State} (a : Grants s t) (h : s.holdingLaws) : t.holdingLaws := by
  obtain ⟨hc, hw, ho⟩ := h
  rw [claimLaw_iff] at hc
  refine ⟨(claimLaw_iff t).mpr ⟨a.table hc.1, fun c hm => ?_⟩, waitLaw_of_sublist hw (a.waiting.map _), ?_⟩
  · simpa only [State.isBound, State.station, a.stations] using hc.2 c (a.claims.subset hm)
  · exact orderLaw_of_grown hc.1 (a.table hc.1) a.held a.stations a.pairs a.slots ho

theorem Grants.pairLaw {s t : State} (a : Grants s t) (h : s.pairLaw) : t.pairLaw :=
  pairLaw_congr h a.lines fun k => by simp only [State.pair, a.pairs]

/-! ### Claims given up -/

theorem giveUp_lines_frame (s : State) (c : Claim) (a : LineAction) :
    OnlyLines s ((linesOf c.lines).foldl State.freeLine (s.applyAction c.lines a)) :=
  (applyAction_frame s c.lines a).trans (foldl_frame OnlyLines.refl OnlyLines.trans freeLine_frame _ _)

theorem giveUp_held (s : State) (c : Claim) (a : LineAction) :
    (s.giveUp c a).held = s.held.filter (fun x => x.id != c.id) := by
  rw [← (giveUp_lines_frame s c a).held]; rfl

theorem giveUp_waiting (s : State) (c : Claim) (a : LineAction) : (s.giveUp c a).waiting = s.waiting :=
  (giveUp_lines_frame s c a).waiting

theorem giveUp_claims (s : State) (c : Claim) (a : LineAction) : (s.giveUp c a).claims.Sublist s.claims := by
  simp only [State.claims, giveUp_held, giveUp_waiting]
  exact List.filter_sublist.append_right _

/-- The claim table after one HELD claim is given up (R49, R51). -/
theorem ClaimTable.giveUp {s : State} (h : ClaimTable s) {c : Claim} (hc : c ∈ s.held) (a : LineAction) :
    ClaimTable (s.giveUp c a) where
  named d hd := h.named d ((giveUp_claims s c a).subset hd)
  ids := h.ids.sublist ((giveUp_claims s c a).map _)
  holder d hd l hl := by
    rw [giveUp_held, List.mem_filter] at hd
    have hh := h.holder d hd.1 l hl
    rw [giveUp_line]
    dsimp only
    rw [if_neg fun hn => ?_, hh]
    rw [h.holder c hc l hn] at hh
    simp [Option.some.inj hh] at hd
  held l id hl := by
    rw [giveUp_line] at hl
    dsimp only at hl
    split at hl
    · cases hl
    · rename_i hn
      obtain ⟨d, hd, rfl, hdl⟩ := h.held l id hl
      refine ⟨d, ?_, rfl, hdl⟩
      rw [giveUp_held, List.mem_filter, bne_iff_ne]
      refine ⟨hd, fun e => hn ?_⟩
      rwa [h.eq_of_id (mem_claims_of_held hd) (mem_claims_of_held hc) e] at hdl

theorem ClaimTable.revoke : ∀ {l : List Claim} {s : State}, ClaimTable s → (∀ c ∈ l, c ∈ s.held) →
    (l.map (fun c => c.id)).Nodup → ClaimTable (s.revoke l)
  | [], _, h, _, _ => h
  | c :: l, s, h, hm, hn => by
    rw [List.map_cons, List.nodup_cons] at hn
    refine ClaimTable.revoke (s := s.giveUp c c.loss) (h.giveUp (hm c List.mem_cons_self) _) (fun d hd => ?_) hn.2
    rw [giveUp_held, List.mem_filter, bne_iff_ne]
    exact ⟨hm d (List.mem_cons_of_mem _ hd), fun e => hn.1 (e ▸ List.mem_map_of_mem hd)⟩

theorem pairLaw_giveUp {s : State} (h : s.pairLaw) (c : Claim) (a : LineAction) : (s.giveUp c a).pairLaw := by
  have h1 : (s.applyAction c.lines a).pairLaw := by
    cases a with
    | hold => exact h
    | safe => exact foldl_kept (P := State.pairLaw) (fun u l hu => pairLaw_toSafe hu l) _ _ h
  refine pairLaw_congr h1 (fun l => ?_) fun k => congrArg _ (freeLines_pair _ _ k)
  have e : (s.giveUp c a).line l = ((linesOf c.lines).foldl State.freeLine (s.applyAction c.lines a)).line l := rfl
  rw [e, freeLines_line]
  split <;> exact ⟨rfl, rfl⟩

/-- What is left when claims are given up and orders removed: claims and orders only of stations still BOUND, and under
each order the claims that it rests on. -/
theorem holdingLaws_of_left {s t : State} (h : s.holdingLaws) (ht : ClaimTable t)
    (hw : (t.waiting.map (fun w => w.claim)).Sublist (s.waiting.map (fun w => w.claim)))
    (hc : ∀ c ∈ t.claims, t.isBound c.station = true)
    (ho : ∀ i o, t.order i = some o → s.order i = some o ∧ t.isBound o.station = true ∧
      ∀ c ∈ s.held, c.station = o.station → ∀ l, named c.lines l = true →
        named o.body.targets l = true → c ∈ t.held)
    (hp : ∀ k, t.pairBound k = true → s.pairBound k = true) : t.holdingLaws := by
  obtain ⟨hcl, hwl, hol⟩ := h
  refine ⟨(claimLaw_iff t).mpr ⟨ht, hc⟩, waitLaw_of_sublist hwl hw, fun i o hi => ?_⟩
  obtain ⟨hs, hb, hk⟩ := ho i o hi
  obtain ⟨-, hl, hpar⟩ := hol i o hs
  refine ⟨hb, fun l hn => ?_, fun k hkb => hpar k (hp k hkb)⟩
  obtain ⟨c, hch, hst, hcn⟩ := (((claimLaw_iff s).mp hcl).1.holds_iff _ l).mp (hl l hn)
  exact (ht.holds_iff _ l).mpr ⟨c, hk c hch hst l hcn hn, hst, hcn⟩

/-- Masks that share a line. -/
theorem and_ne_zero_of_named {a b : LineMask} {l : LineNo} (ha : named a l = true) (hb : named b l = true) :
    a &&& b ≠ 0 := by
  intro e
  have := congrArg (fun m => named m l) e
  simp [named] at this ha hb
  rw [this ha] at hb; cases hb

/-- A claim given up under which its station has no order (R49). -/
theorem holdingLaws_giveUp {s : State} (h : s.holdingLaws) {c : Claim} (hc : c ∈ s.held) (a : LineAction)
    (ho : ∀ i o, s.order i = some o → o.station = c.station → o.body.targets &&& c.lines = 0) :
    (s.giveUp c a).holdingLaws := by
  obtain ⟨ht, hb⟩ := (claimLaw_iff s).mp h.1
  have hf := giveUp_frame s c a
  have hbound : ∀ n, (s.giveUp c a).isBound n = s.isBound n := fun n => by
    simp only [State.isBound, hf.station]
  refine holdingLaws_of_left h (ht.giveUp hc a) (by rw [giveUp_waiting]) (fun d hd => ?_)
    (fun i o hi => ?_) fun k hk => by rwa [giveUp_pairBound] at hk
  · rw [hbound]; exact hb d ((giveUp_claims s c a).subset hd)
  · rw [hf.order] at hi
    refine ⟨hi, by rw [hbound]; exact (h.2.2 i o hi).1, fun d hd hst l hl hn => ?_⟩
    rw [giveUp_held, List.mem_filter, bne_iff_ne]
    refine ⟨hd, fun e => ?_⟩
    obtain rfl := ht.eq_of_id (mem_claims_of_held hd) (mem_claims_of_held hc) e
    exact and_ne_zero_of_named hn hl (ho i o hi hst.symm)

/-! ### Releases and teardowns -/

/-- Claims, orders and pairs after an operation: each set of laws is kept where it held. -/
structure Lawful (s t : State) : Prop where
  laws : s.holdingLaws → t.holdingLaws
  pairs : s.holdingLaws → s.pairLaw → t.pairLaw

theorem Lawful.refl (s : State) : Lawful s s := ⟨id, fun _ h => h⟩

theorem Lawful.trans {s t u : State} (a : Lawful s t) (b : Lawful t u) : Lawful s u :=
  ⟨fun h => b.laws (a.laws h), fun h hp => b.pairs (a.laws h) (a.pairs h hp)⟩

theorem Keeps.lawful {s t : State} (a : Keeps s t) : Lawful s t :=
  ⟨a.toHolding.laws, fun h => a.pairs h.2.2⟩

theorem Grants.lawful {s t : State} (a : Grants s t) : Lawful s t := ⟨a.laws, fun _ => a.pairLaw⟩

/-- Some waiting claims leave the list. -/
theorem keeps_filterWaiting (s : State) (q : WaitingClaim → Bool) :
    Keeps s { s with waiting := s.waiting.filter q } where
  toHolding := { Holding.refl s with held := rfl, waiting := List.filter_sublist.map _ }
  pairs _ h := h

/-- The release of a HELD claim (R49). -/
theorem lawful_releaseClaim {s : State} {p : StationNo} {c : Claim} (hc : c ∈ s.held) (hp : c.station = p)
    (a : LineAction) : Lawful s (s.releaseClaim p c a) := by
  have hk : Keeps s (s.removeOrders (s.slotsOn p c.lines)) := keeps_work.removeOrders s _
  refine hk.lawful.trans (Lawful.trans ⟨fun h => ?_, fun _ h => pairLaw_giveUp h c a⟩ (grants_grantScan _).lawful)
  refine holdingLaws_giveUp h (by rw [hk.held]; exact hc) a fun i o ho hst => ?_
  by_contra hne
  rw [State.slotsOn, removeOrders_slotsWith, without_order, Option.filter_eq_some_iff] at ho
  exact hne (by simpa [hst, hp] using ho.2)

theorem lawful_expireWaits (s : State) : Lawful s s.expireWaits := by
  unfold State.expireWaits
  split
  · exact Lawful.refl s
  · exact ((keeps_filterWaiting s _).trans
      (keeps_foldl (fun _ _ => (appendNotice_frame _ _ _).keeps) _ _)).lawful.trans (grants_grantScan _).lawful

theorem lawful_withdraw (s : State) (p : StationNo) (id : Byte) : Lawful s (s.withdraw p id) :=
  (keeps_filterWaiting s _).lawful.trans (grants_grantScan _).lawful

theorem revoke_frame (s : State) (l : List Claim) : OnlyClaims s (s.revoke l) :=
  foldl_frame OnlyClaims.refl OnlyClaims.trans (fun s (c : Claim) => giveUp_frame s c c.loss) l s

theorem revoke_waiting (s : State) (l : List Claim) : (s.revoke l).waiting = s.waiting := by
  induction l generalizing s with
  | nil => rfl
  | cons c l ih => exact (ih _).trans (giveUp_waiting s c c.loss)

@[simp] theorem revoke_pairBound (s : State) (l : List Claim) (k : PairNo) :
    (s.revoke l).pairBound k = s.pairBound k := by
  induction l generalizing s with
  | nil => rfl
  | cons c l ih => exact (ih _).trans (giveUp_pairBound s c c.loss k)

/-- The HELD claims of one station revoked: those of the others are left. -/
theorem ClaimTable.mem_revoke {s : State} (h : ClaimTable s) (n : StationNo) (c : Claim) :
    c ∈ (s.revoke (s.held.filter (fun c => c.station == n))).held ↔ c ∈ s.held ∧ c.station ≠ n := by
  rw [revoke_held, List.mem_filter, List.all_eq_true]
  refine and_congr_right fun hc => ⟨fun ha e => ?_, fun hn d hd => ?_⟩
  · simpa using ha c (List.mem_filter.mpr ⟨hc, by simpa using e⟩)
  · rw [bne_iff_ne]
    intro e
    obtain ⟨hd, hs⟩ := List.mem_filter.mp hd
    rw [h.eq_of_id (mem_claims_of_held hc) (mem_claims_of_held hd) e] at hn
    exact hn (by simpa using hs)

/-- The state in which the claim table makes its part of a teardown: the session has ended and the orders are gone. -/
theorem orderTeardown_left (s : State) (n : StationNo) (lapsed : Bool) :
    let u := (s.endSession n lapsed).orderTeardown n
    u.held = s.held ∧ u.waiting = s.waiting ∧ u.lines = s.lines ∧ u.pairs = s.pairs ∧
      (∀ m, m ≠ n → u.station m = s.station m) ∧
      ∀ i o, u.order i = some o → s.order i = some o ∧ o.station ≠ n := by
  intro u
  have hu : u = ((s.endSession n lapsed).without fun o => o.station == n).setStation n
    { (s.endSession n lapsed).station n with quota := 0 } := orderTeardown_eq _ n
  rw [hu]
  refine ⟨rfl, rfl, rfl, rfl, fun m hm => ?_, fun i o hi => ?_⟩
  · rw [State.setStation_station_ne _ _ _ hm]
    exact (endSession_station s n m lapsed).trans (if_neg hm)
  · rw [State.setStation_order, without_order, Option.filter_eq_some_iff] at hi
    exact ⟨hi.1, by simpa using hi.2⟩

/-- The claims and orders that a teardown leaves, before the grant scan (R51, R81). -/
theorem holdingLaws_revoked {s : State} (h : s.holdingLaws) (n : StationNo) (lapsed : Bool) {u v : State}
    (hu : u = (s.endSession n lapsed).orderTeardown n)
    (hv : v = u.revoke (u.held.filter (fun c => c.station == n))) :
    ({ v with waiting := v.waiting.filter (fun w => w.claim.station != n) } : State).holdingLaws := by
  obtain ⟨hheld, hwait, hlines, hpairs, hst, hord⟩ := orderTeardown_left s n lapsed
  rw [← hu] at hheld hwait hlines hpairs hst hord
  obtain ⟨ht, hb⟩ := (claimLaw_iff s).mp h.1
  have htu : ClaimTable u := by
    have hcl : u.claims = s.claims := by simp only [State.claims, hheld, hwait]
    have hl : ∀ l, u.line l = s.line l := fun l => by simp only [State.line, hlines]
    exact ⟨by rw [hcl]; exact ht.named, by rw [hcl]; exact ht.ids, by rw [hheld]; simpa only [hl] using ht.holder,
      by rw [hheld]; simpa only [hl] using ht.held⟩
  have htv : ClaimTable v := by
    rw [hv]
    refine htu.revoke (fun c hc => List.mem_of_mem_filter hc) ?_
    exact (htu.ids.sublist ((List.sublist_append_left _ _).map _)).sublist (List.filter_sublist.map _)
  have hf : OnlyClaims u v := by rw [hv]; exact revoke_frame u _
  have hmem : ∀ c, c ∈ v.held ↔ c ∈ s.held ∧ c.station ≠ n := fun c => by
    rw [hv, htu.mem_revoke n c, hheld]
  have hvw : v.waiting = s.waiting := by rw [hv, revoke_waiting, hwait]
  have hbound : ∀ m, m ≠ n → v.isBound m = s.isBound m := fun m hm => by
    simp only [State.isBound, hf.station, hst m hm]
  refine holdingLaws_of_left h ((keeps_filterWaiting v _).table htv) ?_ (fun c hc => ?_) (fun i o hi => ?_)
    fun k hk => ?_
  · rw [hvw]; exact List.filter_sublist.map _
  · have hcs : c ∈ s.claims ∧ c.station ≠ n := by
      rcases List.mem_append.mp hc with hc | hc
      · exact ⟨mem_claims_of_held ((hmem c).mp hc).1, ((hmem c).mp hc).2⟩
      · obtain ⟨w, hw, rfl⟩ := List.mem_map.mp hc
        obtain ⟨hw, hne⟩ := List.mem_filter.mp hw
        rw [hvw] at hw
        exact ⟨List.mem_append_right _ (List.mem_map_of_mem hw), by simpa using hne⟩
    exact (hbound _ hcs.2).trans (hb c hcs.1)
  · obtain ⟨hs, hne⟩ := hord i o ((hf.order i).symm.trans hi)
    exact ⟨hs, (hbound _ hne).trans (h.2.2 i o hs).1,
      fun c hc e _ _ _ => (hmem c).mpr ⟨hc, by rw [e]; exact hne⟩⟩
  · have : v.pairBound k = true := hk
    rw [hv, revoke_pairBound] at this
    simpa only [State.pairBound, State.pair, hpairs] using this

theorem lawful_teardown (s : State) (n : StationNo) (lapsed : Bool) : Lawful s (s.teardown n lapsed) := by
  generalize hu : (s.endSession n lapsed).orderTeardown n = u
  generalize hv : u.revoke (u.held.filter (fun c => c.station == n)) = v
  have hscan : Lawful s ({ v with waiting := v.waiting.filter (fun w => w.claim.station != n) }.grantScan) := by
    refine Lawful.trans ⟨fun h => holdingLaws_revoked h n lapsed hu.symm hv.symm, fun _ hp => ?_⟩
      (grants_grantScan _).lawful
    have hpu : u.pairLaw := by
      obtain ⟨-, -, hlines, hpairs, -, -⟩ := orderTeardown_left s n lapsed
      rw [hu] at hlines hpairs
      exact pairLaw_congr hp (fun l => by simp only [State.line, hlines, and_self])
        fun k => by simp only [State.pair, hpairs]
    have : v.pairLaw := by
      rw [← hv]; exact foldl_kept (P := State.pairLaw) (fun x (c : Claim) hx => pairLaw_giveUp hx c c.loss) _ _ hpu
    exact this
  have he : s.teardown n lapsed =
      (({ v with waiting := v.waiting.filter (fun w => w.claim.station != n) }.grantScan).captureTeardown
        n).disarm n := by
    rw [← hv, ← hu]; rfl
  have hd : ∀ x : State, Keeps x (x.disarm n) := fun x => by
    unfold State.disarm; split
    · exact Keeps.of_same rfl rfl rfl rfl rfl rfl
    · exact Keeps.refl x
  rw [he]
  refine hscan.trans (Keeps.lawful ?_)
  refine Keeps.trans ?_ (hd _)
  exact OnlyAside.keeps rfl

theorem lawful_lapse (s : State) (n : StationNo) : Lawful s (s.lapse n) := by
  unfold State.lapse; split
  · exact (lawful_teardown s n true).trans (portTeardown_frame _ n false).keeps.lawful
  · exact Lawful.refl s

end Sys2Proof.Machine
end

section
/-! The laws of claims, orders and pairs, kept by every owner of a request, every event and every step. -/

namespace Sys2Proof.Machine

/-! ### What a request that passes the common checks carries -/

theorem request_of_rowOf {c : RequestCode} {f : RequestFrame} (h : rowOf c f = true) : f.request = some c := by
  simpa [rowOf] using h

theorem request_of_rowOfEither {c : RequestCode} {i : Nat} {other : Byte} {f : RequestFrame}
    (h : rowOfEither c i other f = true) : f.request = some c := by
  simp only [rowOfEither, Bool.and_eq_true, beq_iff_eq] at h
  exact h.1

section Passes

variable {s : State} {p : StationNo} {f : RequestFrame} {c : RequestCode} (hc : f.request = some c)
  (h : s.commonRefusal p f = none)
include hc h

/-- A request that passes has the length of its code (R168). -/
theorem length_of_passes : f.payload.length = c.payloadLength := by
  simp only [State.commonRefusal, hc] at h
  split at h
  · assumption
  · cases h

/-- A request that passes, other than BIND and PORT_STATUS, is of a BOUND station (R135). -/
theorem bound_of_passes (hb : c ≠ .bind) (hp : c ≠ .portStatus) : s.isBound p = true := by
  have hl := length_of_passes hc h
  simp only [State.commonRefusal, hc, hl, if_true] at h
  unfold State.sessionRefusal at h
  split at h
  · exact absurd rfl hb
  · exact absurd rfl hp
  · split at h
    · cases h
    · cases h
    · rename_i hs; rwa [isBound_iff]

/-- A frame whose byte does not name the other row's value names another (assumption 5). -/
theorem at_ne_of_row {i : Nat} {other : Byte} (hi : i < c.payloadLength)
    (hr : rowOfEither c i other f = true) : f.at i ≠ other := by
  rw [← length_of_passes hc h] at hi
  simp only [rowOfEither, Bool.and_eq_true, bne_iff_ne] at hr
  intro e
  refine hr.2 ?_
  rw [← e, RequestFrame.at, List.getElem?_eq_getElem hi, List.getD_eq_getElem _ _ hi]

end Passes

/-! ### Sessions and the timebase -/

theorem keeps_setTb (s : State) (b : Timebase) : Keeps s { s with tb := b } :=
  Keeps.of_same rfl rfl rfl rfl rfl rfl

/-- A station record that leaves no BOUND station without its session. -/
theorem keeps_setStation (s : State) (n : StationNo) (r : StationRec)
    (h : s.isBound n = true → r.session = .bound) : Keeps s (s.setStation n r) where
  toHolding := { Holding.refl s with
    held := rfl
    bound := fun m hm => by
      rw [isBound_iff, State.setStation_station]
      split
      · rename_i e; subst e; exact h hm
      · exact (isBound_iff s m).mp hm }
  pairs _ h := h

theorem OnlyLeases.keeps {s t : State} (h : OnlyLeases s t) : Keeps s t := by
  obtain ⟨he, hst⟩ := h
  have hu : Keeps s { t with stations := s.stations } := by
    rw [he]; exact Keeps.of_same rfl rfl rfl rfl rfl rfl
  exact { hu with
    held := hu.held
    bound := fun n hn => by
      rw [isBound_iff] at hn ⊢
      rw [hst n]; exact hn }

theorem keeps_bindOwner (p : StationNo) (f : RequestFrame) (s : State) : Keeps s (bindOwner p f s).state := by
  unfold bindOwner
  split
  · exact Keeps.refl s
  · split
    · exact Keeps.refl s
    · exact (keeps_setStation s p _ fun _ => rfl).trans (setPort_frame _ p _).keeps

theorem keeps_portStatusOwner (p : StationNo) (f : RequestFrame) (s : State) :
    Keeps s (portStatusOwner p f s).state := by
  unfold portStatusOwner
  split
  · dsimp only
    split
    · exact (setPort_frame s p _).keeps
    · exact Keeps.refl s
  · exact Keeps.refl s

theorem keeps_timeStartImmediateOwner (p : StationNo) (f : RequestFrame) (s : State) :
    Keeps s (timeStartImmediateOwner p f s).state := by
  unfold timeStartImmediateOwner
  split
  · exact Keeps.refl s
  · exact (keeps_setTb s _).trans (appendNotices_frame _ _ _).keeps

theorem keeps_timeStartOnMarkOwner (p : StationNo) (f : RequestFrame) (s : State) :
    Keeps s (timeStartOnMarkOwner p f s).state := by
  unfold timeStartOnMarkOwner
  split
  · exact Keeps.refl s
  · exact keeps_setTb s _

theorem keeps_timeStopOwner (p : StationNo) (f : RequestFrame) (s : State) :
    Keeps s (timeStopOwner p f s).state := by
  unfold timeStopOwner
  split
  · exact Keeps.refl s
  · show Keeps s s.halt
    unfold State.halt
    split
    · exact Keeps.of_same rfl rfl rfl rfl rfl rfl
    · exact keeps_setTb s _
    · exact Keeps.refl s

/-! ### Claims -/

/-- A new claim joins the waiting list. -/
theorem ClaimTable.addWaiting {s : State} (h : ClaimTable s) {w : WaitingClaim} (hl : w.claim.lines ≠ 0)
    (h0 : w.claim.id ≠ 0) (hid : ∀ c ∈ s.claims, c.id ≠ w.claim.id) :
    ClaimTable { s with waiting := s.waiting ++ [w] } := by
  have hcl : ({ s with waiting := s.waiting ++ [w] } : State).claims = s.claims ++ [w.claim] := by
    simp [State.claims]
  refine ⟨fun c hc => ?_, ?_, h.holder, h.held⟩
  · rw [hcl, List.mem_append, List.mem_singleton] at hc
    rcases hc with hc | rfl
    · exact h.named c hc
    · exact ⟨hl, h0⟩
  · rw [hcl, List.map_append, List.map_singleton, ← List.concat_eq_append]
    refine List.Nodup.concat (fun hm => ?_) h.ids
    obtain ⟨c, hc, e⟩ := List.mem_map.mp hm
    exact hid c hc e

/-- A station that is BOUND queues a claim within the bounds of the list (R41). -/
theorem lawful_queueClaim {s : State} {w : WaitingClaim} (hb : s.isBound w.claim.station = true)
    (hl : w.claim.lines ≠ 0) (hid : w.claim.id = s.nextClaimId) (hf : s.waitFull w.claim.station = false) :
    Lawful s { s with claimCounter := s.nextClaimId, waiting := s.waiting ++ [w] } := by
  refine ⟨fun ⟨hc, hw, ho⟩ => ?_, fun _ h => h⟩
  obtain ⟨ht, hbound⟩ := (claimLaw_iff s).mp hc
  obtain ⟨h0, hfresh⟩ := nextClaimId_fresh ht hw
  have htw := ht.addWaiting hl (by rwa [hid]) (by rwa [hid])
  rw [State.waitFull, Bool.or_eq_false_iff, decide_eq_false_iff_not, decide_eq_false_iff_not, not_le,
    not_le] at hf
  refine ⟨(claimLaw_iff _).mpr ⟨⟨htw.named, htw.ids, htw.holder, htw.held⟩, fun c hm => ?_⟩,
    ⟨?_, fun n => ?_⟩, ho⟩
  · have : c ∈ s.claims ∨ c = w.claim := by simpa [State.claims, or_assoc] using hm
    rcases this with hm | rfl
    · exact hbound c hm
    · exact hb
  · rw [List.length_append]
    exact Nat.succ_le_of_lt hf.1
  · rw [List.filter_append, List.length_append]
    by_cases e : w.claim.station = n
    · subst e
      simpa [Config.waitingPerStation] using Nat.succ_le_of_lt hf.2
    · simpa [e] using hw.2 n

/-- A station that is BOUND is granted a claim on free lines (R39). -/
theorem lawful_grantClaim {s : State} {c : Claim} (hb : s.isBound c.station = true) (hl : c.lines ≠ 0)
    (hid : c.id = s.nextClaimId) (hf : s.allFree c.lines = true) :
    Lawful s ({ s with claimCounter := s.nextClaimId }.grant c) := by
  have hg : Grants { s with waiting := s.waiting ++ [⟨c, 0⟩] }
      { ({ s with claimCounter := s.nextClaimId }.grant c) with waiting := s.waiting } := by
    have := grants_grant (s := { s with claimCounter := s.nextClaimId }) (a := s.waiting) (b := [])
      (w := ⟨c, 0⟩) hf (OnlyPorts.refl _)
    rw [List.append_nil] at this
    exact ⟨this.held, this.waiting, this.claims,
      fun h => this.table ⟨h.named, h.ids, h.holder, h.held⟩, this.lines, this.pairs, this.slots, this.stations⟩
  have he : ({ ({ s with claimCounter := s.nextClaimId }.grant c) with waiting := s.waiting } : State) =
      { s with claimCounter := s.nextClaimId }.grant c := by rw [grant_eq]
  rw [he] at hg
  generalize ({ s with claimCounter := s.nextClaimId } : State).grant c = t at hg he
  refine ⟨fun ⟨hc, hw, ho⟩ => ?_, fun _ hp => pairLaw_congr hp hg.lines fun k => by
    simp only [State.pair, hg.pairs]⟩
  obtain ⟨ht, hbound⟩ := (claimLaw_iff s).mp hc
  obtain ⟨h0, hfresh⟩ := nextClaimId_fresh ht hw
  have htt := hg.table (ht.addWaiting hl (by exact hid ▸ h0) (by exact hid ▸ hfresh))
  refine ⟨(claimLaw_iff t).mpr ⟨htt, fun d hd => ?_⟩, waitLaw_of_sublist hw (by rw [← he]),
    orderLaw_of_grown ht htt hg.held hg.stations hg.pairs hg.slots ho⟩
  have hd' := hg.claims.subset hd
  have : d ∈ s.claims ∨ d = c := by simpa [State.claims, or_assoc] using hd'
  simp only [State.isBound, State.station, hg.stations]
  rcases this with hm | rfl
  · exact hbound d hm
  · exact hb

theorem lawful_claimOwner {p : StationNo} {f : RequestFrame} {s : State} (hb : s.isBound p = true) :
    Lawful s (claimOwner p f s).state := by
  unfold claimOwner
  split
  · exact Lawful.refl s
  · rename_i hr
    have hl : f.half 0 ≠ 0 := by
      intro e; simp [claimRefusal, e] at hr
    split
    · rename_i hf
      rw [Bool.and_eq_true] at hf
      exact lawful_grantClaim hb hl rfl hf.1
    · split
      · exact Lawful.refl s
      · split
        · exact Lawful.refl s
        · rename_i hf
          exact lawful_queueClaim (w := ⟨s.newClaim p f, f.half 3⟩) hb hl rfl (by rwa [Bool.not_eq_true] at hf)

theorem lawful_releaseOwner (p : StationNo) (f : RequestFrame) (s : State) :
    Lawful s (releaseOwner p f s).state := by
  unfold releaseOwner
  split
  · exact Lawful.refl s
  · split
    · rename_i c hc
      have h := List.find?_some hc
      simp only [Bool.and_eq_true, beq_iff_eq] at h
      exact lawful_releaseClaim (List.mem_of_find?_eq_some hc) h.2 _
    · split
      · exact lawful_withdraw s p _
      · exact Lawful.refl s

/-! ### Lines and pairs -/

theorem shapeLine_frame (x : ShapeForm) (s : State) (l : LineNo) : OnlyLines s (State.shapeLine x s l) := rfl

@[simp] theorem shapeLines_pair (s : State) (m : LineMask) (x : ShapeForm) (k : PairNo) :
    ((linesOf m).foldl (State.shapeLine x) s).pair k = s.pair k :=
  foldl_kept (P := fun u => u.pair k = s.pair k) (f := State.shapeLine x) (fun _ _ h => h) _ s rfl

/-- An accepted SHAPE: the settings it names and the safe states that follow (R32). -/
theorem keeps_shape {s : State} {m : LineMask} {x : ShapeForm} (h : s.shapeClash m x = false) :
    Keeps s (s.shape m x) := by
  refine Keeps.trans (t := (linesOf m).foldl (State.shapeLine x) s) ?_ (keeps_foldl keeps_toSafe _ _)
  have hf : OnlyLines s ((linesOf m).foldl (State.shapeLine x) s) :=
    foldl_frame OnlyLines.refl OnlyLines.trans (shapeLine_frame x) _ s
  have hl := shapeLines_line s m x
  have hp := shapeLines_pair s m x
  refine ⟨⟨hf.held, by rw [hf.waiting], fun l => ?_, fun n hn => ?_, fun k hk => ?_, fun i o ho => ?_⟩,
    fun _ hlaw => ?_⟩
  · rw [hl]; split <;> rfl
  · simpa only [State.isBound, hf.station] using hn
  · simpa only [State.pairBound, hp] using hk
  · exact ⟨o, by rwa [hf.order] at ho, SameTask.refl o⟩
  · rw [pairLaw_iff] at hlaw ⊢
    intro k hk
    have hk' : s.pairBound k = true := by simpa only [State.pairBound, hp] using hk
    obtain ⟨hs, h1, h2⟩ := hlaw k hk'
    have hsafe : ∀ l, (((linesOf m).foldl (State.shapeLine x) s).line l).safe = s.safeAfter m x l := fun l => by
      rw [hl, State.safeAfter]; split <;> rfl
    have hon : ∀ l, (((linesOf m).foldl (State.shapeLine x) s).line l).asserted = (s.line l).asserted := fun l => by
      rw [hl]; split <;> rfl
    refine ⟨?_, by rw [hon, hp]; exact h1, by rw [hon, hp]; exact h2⟩
    rw [hsafe, hsafe]
    by_cases hn : (named m (primary k) || named m (partner k)) = true
    · rintro ⟨ha, hb⟩
      rw [State.shapeClash, List.any_eq_false] at h
      exact h k (List.mem_finRange k) (by simp [hk', hn, ha, hb])
    · simp only [Bool.or_eq_true, not_or] at hn
      rw [State.safeAfter, State.safeAfter, if_neg hn.1, if_neg hn.2]
      exact hs

theorem keeps_shapeOwner (p : StationNo) (f : RequestFrame) (s : State) : Keeps s (shapeOwner p f s).state := by
  unfold shapeOwner
  split
  · exact Keeps.refl s
  · split
    · exact Keeps.refl s
    · split
      · exact Keeps.refl s
      · split
        · exact Keeps.refl s
        · rename_i h; exact keeps_shape (by simpa using h)

theorem keeps_unbindPair (s : State) (k : PairNo) : Keeps s (s.unbindPair k) where
  toHolding := holding_setPairState s k .unbound (.inl rfl)
  pairs _ h := by
    refine pairLaw_update k h (fun _ _ => ⟨rfl, rfl⟩) (fun j hj => ?_) fun hb => ?_
    · rw [State.unbindPair, setPairState_pair, if_neg hj]
    · rw [pairBound_iff, State.unbindPair, setPairState_pair, if_pos rfl] at hb
      exact absurd rfl hb

/-- The gap value of a pair is stored (R29). -/
theorem keeps_setGap (s : State) (k : PairNo) (gap : Byte) :
    Keeps s (s.setPair k { s.pair k with gap := gap }) := by
  have hs : ∀ j, ((s.setPair k { s.pair k with gap := gap }).pair j).state = (s.pair j).state := fun j => by
    rw [State.setPair_pair]; split
    · rename_i e; rw [e]
    · rfl
  exact ⟨{ Holding.refl s with
      held := rfl
      pairBound := fun j hj => by rwa [pairBound_iff, hs, ← pairBound_iff] at hj },
    fun _ h => pairLaw_congr h (fun _ => ⟨rfl, rfl⟩) hs⟩

/-- What the checks of PAIR establish when they pass (R28). -/
theorem pairChecks_ok {p : StationNo} {f : RequestFrame} {s : State} {k : PairNo}
    (h : pairChecks p f s = .ok k) :
    s.heldAsPair p k = true ∧ s.slotsOn p (lineMask (primary k) ||| lineMask (partner k)) = [] ∧
      (f.at 1 = 0 ∨ f.at 1 = 1) ∧
      (f.at 1 = 1 → ¬((s.line (primary k)).safe = true ∧ (s.line (partner k)).safe = true)) := by
  unfold pairChecks at h
  split at h
  · cases h
  · repeat' split at h
    all_goals cases h
    simp_all [State.targeted]
    tauto

/-- Both lines of a pair held as a pair are held by the station (R28). -/
theorem holds_partner_of_heldAsPair {s : State} {p : StationNo} {k : PairNo} (h : s.heldAsPair p k = true) :
    s.holds p (partner k) = true := by
  simp only [State.heldAsPair, Bool.and_eq_true, beq_iff_eq] at h
  unfold State.holds State.holderStation at h ⊢
  rw [← h.1]
  exact h.2

/-- The partner of a pair whose partner the station holds, and none of whose lines its orders target, is no target. -/
theorem partner_untargeted {s : State} {p : StationNo} {k : PairNo} (ho : s.orderLaw)
    (hh : s.holds p (partner k) = true)
    (ht : ∀ i o, s.order i = some o → o.station = p →
      o.body.targets &&& (lineMask (primary k) ||| lineMask (partner k)) = 0) (i : SlotNo) (o : Order)
    (hi : s.order i = some o) : named o.body.targets (partner k) = false := by
  by_contra hn
  rw [Bool.not_eq_false] at hn
  refine and_ne_zero_of_named hn ?_ (ht i o hi (holds_unique ((ho i o hi).2.1 _ hn) hh))
  have := named_lineMask_self (partner k)
  simp only [named, BitVec.getLsbD_or, Bool.or_eq_true] at this ⊢
  exact .inr this

/-- A pair bound from its levels, whose partner the station holds and none of whose lines its orders target (R29,
R22). -/
theorem lawful_setFromLevels {s : State} {p : StationNo} {k : PairNo} (hh : s.holds p (partner k) = true)
    (ht : ∀ i o, s.order i = some o → o.station = p →
      o.body.targets &&& (lineMask (primary k) ||| lineMask (partner k)) = 0)
    (hs : ¬((s.line (primary k)).safe = true ∧ (s.line (partner k)).safe = true))
    (ha : ¬((s.line (primary k)).asserted = true ∧ (s.line (partner k)).asserted = true)) :
    Lawful s (s.setFromLevels k) := by
  refine ⟨fun ⟨hc, hw, hol⟩ => ⟨hc, hw, fun i o hi => ?_⟩, fun _ hp => ?_⟩
  · obtain ⟨hb, hl, hk⟩ := hol i o hi
    refine ⟨hb, hl, fun j hj => ?_⟩
    by_cases e : j = k
    · subst e; exact partner_untargeted hol hh ht i o hi
    · refine hk j ?_
      rw [pairBound_iff] at hj ⊢
      rwa [State.setFromLevels, setPairState_pair, if_neg e] at hj
  · refine pairLaw_update k hp (fun _ _ => ⟨rfl, rfl⟩) (fun j hj => ?_) fun _ => ?_
    · rw [State.setFromLevels, setPairState_pair, if_neg hj]
    · obtain ⟨h1, h2⟩ := levelState_fixes ha
      unfold State.pairFixed
      simp only [State.setFromLevels, setPairState_pair, setPairState_line, if_true]
      exact ⟨hs, h1, h2⟩

theorem lawful_bindPair {s : State} {p : StationNo} {k : PairNo} (gap : Byte)
    (hh : s.holds p (partner k) = true)
    (ht : ∀ i o, s.order i = some o → o.station = p →
      o.body.targets &&& (lineMask (primary k) ||| lineMask (partner k)) = 0)
    (hs : ¬((s.line (primary k)).safe = true ∧ (s.line (partner k)).safe = true)) :
    Lawful s (s.bindPair k gap) := by
  have hgap := keeps_setGap s k gap
  unfold State.bindPair
  dsimp only
  split
  · exact hgap.lawful
  · rename_i hb
    generalize hu : s.setPair k { s.pair k with gap := gap } = u at hgap
    have hline : ∀ l, u.line l = s.line l := fun l => by rw [← hu]; rfl
    split
    · have hub : u.pairBound (pairOf (partner k)) = false := by
        rw [pairOf_partner, Bool.eq_false_iff]
        exact fun h => hb (hgap.pairBound k h)
      have hon := keeps_setAsserted hub false
      refine (hgap.trans hon).lawful.trans (lawful_setFromLevels ?_ (by rw [← hu]; exact ht) ?_ ?_)
      · rw [hon.holds, hgap.holds]; exact hh
      · simpa only [setAsserted_safe, hline] using hs
      · simp [setAsserted_line]
    · rename_i ha
      refine hgap.lawful.trans (lawful_setFromLevels ?_ (by rw [← hu]; exact ht) ?_ ?_)
      · rw [hgap.holds]; exact hh
      · simpa only [hline] using hs
      · simpa only [hline, Bool.and_eq_true] using ha

theorem lawful_pairBindOwner {p : StationNo} {f : RequestFrame} {s : State} (h1 : f.at 1 ≠ 0) :
    Lawful s (pairBindOwner p f s).state := by
  unfold pairBindOwner
  split
  · exact Lawful.refl s
  · rename_i k hc
    obtain ⟨hh, ht, hop, hs⟩ := pairChecks_ok hc
    exact lawful_bindPair _ (holds_partner_of_heldAsPair hh) (slotsOn_eq_nil.mp ht)
      (hs (hop.resolve_left h1))

theorem keeps_pairUnbindOwner (p : StationNo) (f : RequestFrame) (s : State) :
    Keeps s (pairUnbindOwner p f s).state := by
  unfold pairUnbindOwner
  split
  · exact Keeps.refl s
  · exact keeps_unbindPair s _

/-! ### Orders -/

theorem partner_not_primary (k : PairNo) : isPrimary (partner k) = false := by
  simp only [isPrimary, partner, beq_eq_false_iff_ne]; omega

/-- The target lines of an order that passes its checks: held, and no partner of a bound pair (R66). -/
theorem targets_of_passes {p : StationNo} {s : State} {b : OrderBody} (h : targetRefusal p s b = none) :
    (∀ l, named b.targets l = true → s.holds p l = true) ∧
      ∀ k, s.pairBound k = true → named b.targets (partner k) = false := by
  unfold targetRefusal at h
  split at h
  · cases h
  · rename_i hh
    split at h
    · cases h
    · rename_i hp
      simp only [Bool.not_eq_true', Bool.not_eq_false, State.holdsAll, List.all_eq_true, mem_linesOf] at hh
      refine ⟨hh, fun k hk => ?_⟩
      by_contra hn
      rw [Bool.not_eq_false] at hn
      refine hp (List.any_eq_true.mpr ⟨partner k, mem_linesOf.mpr hn, ?_⟩)
      rw [partner_not_primary, pairOf_partner, hk]; rfl

theorem targetRefusal_of_postChecks {p : StationNo} {f : RequestFrame} {s : State} {x : PostForm}
    {b : OrderBody} {tr : Option CaptureTrigger} (h : postChecks p f s = .ok (x, b, tr)) :
    targetRefusal p s b = none := by
  unfold postChecks at h
  repeat' split at h
  all_goals cases h
  assumption

/-- A slot written with a new order of a BOUND station on lines that it holds, none of them the partner of a bound pair
(R58, R66), after work that keeps the laws. -/
theorem lawful_setOrder {s u : State} (hu : Keeps s u) (i : SlotNo) {o : Order}
    (hb : s.isBound o.station = true) (ht : targetRefusal o.station s o.body = none) :
    Lawful s (u.setOrder i o) := by
  refine ⟨fun h => ?_, fun h hp => hu.pairs h.2.2 hp⟩
  obtain ⟨hc, hw, ho⟩ := hu.laws h
  obtain ⟨hl, hk⟩ := targets_of_passes ht
  refine ⟨hc, hw, fun j a hj => ?_⟩
  rw [State.setOrder, setSlot_order] at hj
  split at hj
  · cases hj
    exact ⟨hu.bound _ hb, fun l hn => (hu.holds _ _).trans (hl l hn), fun k hkb => hk k (hu.pairBound k hkb)⟩
  · exact ho j a hj

theorem keeps_nextPost (s : State) : Keeps s s.nextPost := Keeps.of_same rfl rfl rfl rfl rfl rfl

section Posts

variable {p : StationNo} {s : State} (f : RequestFrame) (hb : s.isBound p = true) (x : PostForm) {b : OrderBody}
  (ht : targetRefusal p s b = none)
include hb ht

theorem lawful_postFuture (due : Time) : Lawful s (postFuture p f s x b due).state := by
  unfold postFuture
  split
  · exact Lawful.refl s
  · rename_i i _
    have h := lawful_setOrder (keeps_nextPost s) i
      (o := newOrder p f x b none (.scheduled due b.firstPhase) s.postSeq) hb ht
    refine h.trans (Keeps.lawful ?_)
    exact OnlyAside.keeps rfl

theorem lawful_postLateFire : Lawful s (postLateFire p f s x b).state := by
  unfold postLateFire
  split
  · exact Lawful.refl s
  · refine (lawful_setOrder ((keeps_work.fireDue s).trans (keeps_nextPost _)) _ ?_ ?_).trans
      (keeps_work.fireEdge (order_setOrder _ _ _) (SameTask.refl _) _).lawful
    · exact hb
    · exact ht

theorem lawful_postArmed (tr : CaptureTrigger) : Lawful s (postArmed p f s x b tr).state := by
  unfold postArmed
  split
  · exact Lawful.refl s
  · split
    · exact Lawful.refl s
    · rename_i i _
      have h := lawful_setOrder (keeps_nextPost s) i
        (o := newOrder p f x b (some tr) .armed s.postSeq) hb ht
      refine h.trans (Keeps.lawful ?_)
      exact OnlyAside.keeps rfl

end Posts

theorem lawful_postOwner {p : StationNo} (f : RequestFrame) {s : State} (hb : s.isBound p = true) :
    Lawful s (postOwner p f s).state := by
  unfold postOwner
  split
  · exact Lawful.refl s
  · rename_i hc
    exact lawful_postArmed f hb _ (targetRefusal_of_postChecks hc) _
  · rename_i hc
    have ht := targetRefusal_of_postChecks hc
    split
    · exact lawful_postFuture f hb _ ht _
    · exact Lawful.refl s
    · exact Lawful.refl s
    · exact lawful_postLateFire f hb _ ht

theorem keeps_cancelNowOwner (p : StationNo) (f : RequestFrame) (s : State) :
    Keeps s (cancelNowOwner p f s).state := by
  unfold cancelNowOwner
  split
  · exact Keeps.refl s
  · exact keeps_work.cancelOrder s _

theorem keeps_cancelAtEndOwner (p : StationNo) (f : RequestFrame) (s : State) :
    Keeps s (cancelAtEndOwner p f s).state := by
  unfold cancelAtEndOwner
  split
  · exact Keeps.refl s
  · rename_i hc
    split
    · exact keeps_work.rewrite (Keeps.refl s) (order_of_cancelChecks hc) ⟨rfl, rfl⟩
    · exact keeps_work.cancelOrder s _

/-- REVISE is of a train, and leaves its line (R93, R94). -/
theorem body_of_reviseChecks {p : StationNo} {f : RequestFrame} {s : State} {i : SlotNo} {o : Order}
    {l : LineNo} {x : TrainRec} (h : reviseChecks p f s = .ok (i, o, l, x)) : o.body = .train l x := by
  unfold reviseChecks at h
  repeat' split at h
  all_goals cases h
  assumption

theorem keeps_reviseOwner (p : StationNo) (f : RequestFrame) (s : State) :
    Keeps s (reviseOwner p f s).state := by
  unfold reviseOwner
  split
  · exact Keeps.refl s
  · rename_i i o l x hc
    have ht : o.body.targets = lineMask l := by rw [body_of_reviseChecks hc]; rfl
    split
    · exact keeps_work.rewrite (Keeps.refl s) (order_of_reviseChecks hc) ⟨rfl, ht⟩
    · exact keeps_work.rewrite (Keeps.refl s) (order_of_reviseChecks hc) ⟨rfl, ht⟩

theorem keeps_flushOwner (p : StationNo) (f : RequestFrame) (s : State) : Keeps s (flushOwner p f s).state := by
  unfold flushOwner
  split
  · exact Keeps.refl s
  · split
    · exact Keeps.refl s
    · exact keeps_foldl keeps_work.cancelOrder _ s

/-! ### Groups and captures -/

theorem keeps_guardMapOwner (p : StationNo) (f : RequestFrame) (s : State) :
    Keeps s (guardMapOwner p f s).state := by
  unfold guardMapOwner
  split
  · exact Keeps.refl s
  · rename_i g m _
    have hm := keeps_setGroup s g { s.group g with map := m }
    unfold State.remap
    dsimp only
    split
    · split
      · exact (hm.trans (keeps_tripGroup _ g)).trans (tripNotices_frame _ g _).keeps
      · exact hm
    · exact hm

theorem keeps_rearmOwner (p : StationNo) (f : RequestFrame) (s : State) : Keeps s (rearmOwner p f s).state := by
  unfold rearmOwner
  split
  · exact Keeps.refl s
  · split
    · exact Keeps.refl s
    · split
      · exact Keeps.refl s
      · split
        · exact Keeps.refl s
        · exact (keeps_setGroup s _ _).trans (appendNotices_frame _ _ _).keeps

theorem keeps_setInput (s : State) (c : InputNo) (r : InputRec) : Keeps s (s.setInput c r) := OnlyAside.keeps rfl

theorem keeps_subscribeOwner (p : StationNo) (f : RequestFrame) (s : State) :
    Keeps s (subscribeOwner p f s).state := by
  unfold subscribeOwner
  split
  · exact Keeps.refl s
  · split
    · split
      · exact keeps_setInput s _ _
      · split
        · exact keeps_setInput s _ _
        · exact Keeps.refl s
    · exact keeps_setInput s _ _

theorem keeps_unsubscribeOwner (p : StationNo) (f : RequestFrame) (s : State) :
    Keeps s (unsubscribeOwner p f s).state := by
  unfold unsubscribeOwner
  split
  · exact Keeps.refl s
  · split
    · exact Keeps.refl s
    · exact (keeps_work.removeOrders s _).trans (OnlyAside.keeps rfl)

theorem keeps_readCapturesOwner (p : StationNo) (f : RequestFrame) (s : State) :
    Keeps s (readCapturesOwner p f s).state := by
  unfold readCapturesOwner
  split
  · exact OnlyAside.keeps rfl
  · exact Keeps.refl s

/-- Every owner keeps the laws. -/
theorem lawful_rowOwner {c : Instr} {p : StationNo} {row : RequestFrame → Bool} {f : RequestFrame} {s : State}
    (hc : requestRow c = some (p, row)) (hrow : row f = true) (hf : s.commonRefusal p f = none) :
    Lawful s (rowOwner c p f s).state := by
  cases c with
  | bind => exact (keeps_bindOwner p f s).lawful
  | unbind => exact lawful_teardown s p false
  | portStatus => exact (keeps_portStatusOwner p f s).lawful
  | timeStartImmediate => exact (keeps_timeStartImmediateOwner p f s).lawful
  | timeStartOnMark => exact (keeps_timeStartOnMarkOwner p f s).lawful
  | timeStop => exact (keeps_timeStopOwner p f s).lawful
  | claim =>
    cases hc
    exact lawful_claimOwner (bound_of_passes (request_of_rowOf hrow) hf nofun nofun)
  | release => exact lawful_releaseOwner p f s
  | shape => exact (keeps_shapeOwner p f s).lawful
  | lineRead => show Lawful s (lineReadOwner p f s).state; unfold lineReadOwner; split <;> exact Lawful.refl s
  | pairBind =>
    cases hc
    exact lawful_pairBindOwner (at_ne_of_row (request_of_rowOfEither hrow) hf (by decide) hrow)
  | pairUnbind => exact (keeps_pairUnbindOwner p f s).lawful
  | post =>
    cases hc
    exact lawful_postOwner f (bound_of_passes (request_of_rowOf hrow) hf nofun nofun)
  | cancelNow => exact (keeps_cancelNowOwner p f s).lawful
  | cancelAtEnd => exact (keeps_cancelAtEndOwner p f s).lawful
  | revise => exact (keeps_reviseOwner p f s).lawful
  | flush => exact (keeps_flushOwner p f s).lawful
  | orderRead => show Lawful s (orderReadOwner p f s).state; unfold orderReadOwner; split <;> exact Lawful.refl s
  | guardMap => exact (keeps_guardMapOwner p f s).lawful
  | rearm => exact (keeps_rearmOwner p f s).lawful
  | subscribe => exact (keeps_subscribeOwner p f s).lawful
  | unsubscribe => exact (keeps_unsubscribeOwner p f s).lawful
  | readCaptures => exact (keeps_readCapturesOwner p f s).lawful
  | _ => exact Lawful.refl s

/-! ### Events and steps -/

theorem keeps_markEdge (s : State) : Keeps s s.markEdge := by
  unfold State.markEdge
  split
  · exact (keeps_setTb s _).trans (appendNotices_frame _ _ _).keeps
  · exact Keeps.refl s

theorem keeps_armExpiry (s : State) : Keeps s s.armExpiry := by
  unfold State.armExpiry
  split
  · dsimp only
    split
    · exact (keeps_setTb s _).trans (appendNotice_frame _ _ _).keeps
    · exact keeps_setTb s _
  · exact Keeps.refl s

/-- A lease unit that ends moves lease timers and deadlines alone (R15). -/
theorem keeps_leaseUnitEnds (s : State) : Keeps s s.leaseUnitEnds where
  toHolding := { Holding.refl s with
    held := rfl
    waiting := by simp [State.leaseUnitEnds, Function.comp_def]
    bound := fun n h => by simpa [State.isBound, State.station, State.leaseUnitEnds] using h }
  pairs _ h := h

theorem lawful_breakSession (s : State) (p : StationNo) : Lawful s (s.breakSession p) := by
  unfold State.breakSession
  split
  · exact (lawful_teardown s p false).trans (portTeardown_frame _ p false).keeps.lawful
  · rename_i hl
    exact (keeps_setStation s p _ fun h => by rw [isBound_iff, hl] at h; cases h).lawful
  · exact Lawful.refl s

/-- The power-on values meet the laws: there is no claim, no order and no bound pair. -/
theorem lawful_powerOn (s : State) {t : State} (hh : t.held = []) (hw : t.waiting = [])
    (hl : t.lines = Vector.replicate 16 LineRec.powerOn) (hp : t.pairs = Vector.replicate 8 PairUnit.powerOn)
    (hs : t.slots = Vector.replicate 128 ⟨0, none⟩) : Lawful s t := by
  have hcl : t.claims = [] := by simp [State.claims, hh, hw]
  have hline : ∀ l, t.line l = LineRec.powerOn := fun l => by simp [State.line, hl]
  have hpair : ∀ k, t.pair k = PairUnit.powerOn := fun k => by simp [State.pair, hp]
  have horder : ∀ i, t.order i = none := fun i => by simp [State.order, State.slot, hs]
  refine ⟨fun _ => ⟨⟨?_, ?_, ?_, fun l id h => ?_⟩, ⟨by simp [hw], by simp [hw]⟩, fun i o h => ?_⟩,
    fun _ _ => (pairLaw_iff t).mpr fun k hk => ?_⟩
  · rw [hcl]; exact nofun
  · rw [hcl]; exact List.nodup_nil
  · rw [hh]; exact nofun
  · rw [hline] at h; cases h
  · rw [horder] at h; cases h
  · rw [pairBound_iff, hpair] at hk; exact absurd rfl hk

theorem keeps_setPending (s : State) (l : List Instr) : Keeps s (s.setPending l) :=
  Keeps.of_same rfl rfl rfl rfl rfl rfl

/-- Every taking and every event keeps the laws. -/
theorem lawful_keptBySteps (s₀ : State) : KeptBySteps (Lawful s₀) where
  leases a h := h.trans a.keeps.lawful
  lapse s n h := h.trans (lawful_lapse s n)
  owner hc hrow hf h := h.trans (lawful_rowOwner hc hrow hf)
  pending s l h := h.trans (keeps_setPending s l).lawful
  fireDue s h := h.trans (keeps_work.fireDue s).lawful
  completeGap s k h := h.trans (keeps_completeGap s k).lawful
  sample s c level h := h.trans (keeps_work.sample s c level).lawful
  activate s i h := h.trans (keeps_work.activate s i).lawful
  setGuard s i a h := h.trans (keeps_work.setGuard s i a).lawful
  expireWaits s h := h.trans (lawful_expireWaits s)
  markEdge s h := h.trans (keeps_markEdge s).lawful
  armExpiry s h := h.trans (keeps_armExpiry s).lawful
  advance s h := h.trans (keeps_setTb s _).lawful
  leaseUnitEnds s h := h.trans (keeps_leaseUnitEnds s).lawful
  armUnitEnds s h := h.trans (keeps_setTb s _).lawful
  breakSession s p h := h.trans (lawful_breakSession s p)
  inPowerOnReset s h := h.trans (lawful_powerOn s rfl rfl rfl rfl rfl)
  powerOn s _ _ _ _ h := h.trans (lawful_powerOn s rfl rfl rfl rfl rfl)

/-- Every step keeps the laws of claims and orders, and the law of pairs with them. -/
theorem lawful_step {s t : State} (h : step s = .next t) : Lawful s t :=
  (lawful_keptBySteps s).step h (Lawful.refl s)

/-- Settles O56: an order rests on HELD claims of its station, and every part of a step leaves it there. -/
theorem stepKeepsOrdersOnHeldLines : Obligations.StepKeepsOrdersOnHeldLines := by
  intro s t hc hw ho h
  exact ((lawful_step h).laws ⟨hc, hw, ho⟩).2.2

/-- Settles O57: only commands, safe states and BIND turn a bound pair, and each leaves it in a state that fixes both
lines. -/
theorem stepKeepsPairsBreakBeforeMake : Obligations.StepKeepsPairsBreakBeforeMake := by
  intro s t hc hw ho hp h
  exact (lawful_step h).pairs ⟨hc, hw, ho⟩ hp

end Sys2Proof.Machine
end

section
/-! The line unit's own statements: the way of a command, gap completions, LINE_READ, PAIR and SHAPE. -/

namespace Sys2Proof.Machine

/-! ### Commands and gaps -/

/-- The change of side towards the primary (R23). -/
theorem turnToPrimary_eq (s : State) (k : PairNo) :
    s.turnToPrimary k =
      if (s.pair k).gap = 0 then
        ((s.setLine (partner k) { s.line (partner k) with asserted := false }).setLine (primary k)
          { s.line (primary k) with asserted := true }).setPair k { s.pair k with state := .primaryOn }
      else
        (s.setLine (partner k) { s.line (partner k) with asserted := false }).setPair k
          { s.pair k with state := .gapToPrimary (s.tb.t + (s.pair k).gap.setWidth 32) } := by
  unfold State.turnToPrimary State.setAsserted State.setPairState
  rw [State.setLine_line_ne _ _ _ (primary_ne_partner k)]
  rfl

/-- The change of side towards the partner (R24). -/
theorem turnToPartner_eq (s : State) (k : PairNo) :
    s.turnToPartner k =
      if (s.pair k).gap = 0 then
        ((s.setLine (primary k) { s.line (primary k) with asserted := false }).setLine (partner k)
          { s.line (partner k) with asserted := true }).setPair k { s.pair k with state := .partnerOn }
      else
        (s.setLine (primary k) { s.line (primary k) with asserted := false }).setPair k
          { s.pair k with state := .gapToPartner (s.tb.t + (s.pair k).gap.setWidth 32) } := by
  unfold State.turnToPartner State.setAsserted State.setPairState
  rw [State.setLine_line_ne _ _ _ (partner_ne_primary k)]
  rfl

/-- The side that a command given to a bound pair means (R20): INVERT is decided by the intended side. -/
def LineCommand.meansPrimary (c : LineCommand) (x : PairState) : Bool :=
  match c with
  | .assert => true
  | .deassert => false
  | .invert => !x.intendsPrimary
  | .level a => a

theorem pairCommand_eq (s : State) (k : PairNo) (c : LineCommand) :
    s.pairCommand k c =
      if c.meansPrimary (s.pair k).state then s.pairAssert k else s.pairDeassert k := by
  cases c with
  | assert => rfl
  | deassert => rfl
  | invert => cases h : (s.pair k).state.intendsPrimary <;> simp [State.pairCommand, LineCommand.meansPrimary, h]
  | level a => rfl

/-- A command in a TRIPPED group is not made (R21). -/
theorem command_tripped {s : State} {l : LineNo} (h : (s.group (groupOf l)).state = .tripped) (c : LineCommand) :
    s.command l c = s := by
  simp [State.command, State.groupNormal, h]

/-- A command that does not name the primary of a bound pair sets its line (R20). -/
theorem command_line {s : State} {l : LineNo} (h : (s.group (groupOf l)).state = .normal)
    (hl : isPrimary l = false ∨ s.pairBound (pairOf l) = false) (c : LineCommand) :
    s.command l c = s.setAsserted l (c.apply (s.line l).asserted) := by
  rcases hl with hl | hl <;> simp [State.command, State.groupNormal, h, hl]

/-- A command that names the primary of a bound pair is given to the pair unit (R20). -/
theorem command_pair {s : State} {l : LineNo} (h : (s.group (groupOf l)).state = .normal)
    (hl : isPrimary l = true) (hb : s.pairBound (pairOf l) = true) (c : LineCommand) :
    s.command l c = s.pairCommand (pairOf l) c := by
  simp [State.command, State.groupNormal, h, hl, hb]

/-- ASSERT given to a pair (R23). -/
theorem pairAssert_eq (s : State) (k : PairNo) :
    (((s.pair k).state = .primaryOn ∨ ∃ e, (s.pair k).state = .gapToPrimary e) → s.pairAssert k = s) ∧
      (((s.pair k).state = .bothOff ∨ (s.pair k).state = .partnerOn ∨ ∃ e, (s.pair k).state = .gapToPartner e) →
        s.pairAssert k = s.turnToPrimary k) := by
  unfold State.pairAssert
  cases (s.pair k).state <;> simp

/-- DEASSERT given to a pair (R24). -/
theorem pairDeassert_eq (s : State) (k : PairNo) :
    (((s.pair k).state = .partnerOn ∨ ∃ e, (s.pair k).state = .gapToPartner e) → s.pairDeassert k = s) ∧
      (((s.pair k).state = .bothOff ∨ (s.pair k).state = .primaryOn ∨ ∃ e, (s.pair k).state = .gapToPrimary e) →
        s.pairDeassert k = s.turnToPartner k) := by
  unfold State.pairDeassert
  cases (s.pair k).state <;> simp

/-- Settles O16: the group stage, then the line or the pair unit. -/
theorem commandSetsLineOrTurnsPair : Obligations.CommandSetsLineOrTurnsPair := by
  intro s l c k r x toPrimary
  have hside : toPrimary = c.meansPrimary x.state := by
    cases c with
    | invert => simp only [toPrimary, LineCommand.meansPrimary]; cases x.state <;> rfl
    | _ => rfl
  refine ⟨fun h => command_tripped h c, fun h hl => ?_, fun h hl hb => ?_⟩
  · have hl' : isPrimary l = false ∨ s.pairBound (pairOf l) = false := by
      refine hl.imp (fun e => ?_) fun e => ?_
      · rw [e]; exact partner_not_primary k
      · rw [Bool.eq_false_iff, Ne, pairBound_iff]; exact fun hn => hn e
    rw [command_line h hl']
    cases c <;> rfl
  · rw [command_pair h ((isPrimary_iff l).mpr hl) ((pairBound_iff s k).mpr hb), pairCommand_eq, hside]
    obtain ⟨ha, ha'⟩ := pairAssert_eq s k
    obtain ⟨hd, hd'⟩ := pairDeassert_eq s k
    have hr : r = s.line (primary k) := congrArg s.line hl
    have hp := turnToPrimary_eq s k
    have hq := turnToPartner_eq s k
    rw [← hr, ← hl] at hp hq
    refine ⟨fun hc => ?_, fun hc => ?_⟩
    · rw [if_pos hc]
      exact ⟨ha, fun hx => (ha' hx).trans hp⟩
    · rw [if_neg (by rw [hc]; exact nofun)]
      exact ⟨hd, fun hx => (hd' hx).trans hq⟩

/-- Settles O17. -/
theorem gapCompletes : Obligations.GapCompletes := by
  intro k s hs
  simp only [exec, execGapCompletion]
  rw [acting_atWork hs]
  refine ⟨fun hr hk => ?_, fun hr hk => ?_, fun h => ?_⟩
  · rw [if_pos hr, State.completeGap, hk]
    dsimp only
    rw [if_pos rfl]
    rfl
  · rw [if_pos hr, State.completeGap, hk]
    dsimp only
    rw [if_pos rfl]
    rfl
  · rcases h with hr | ⟨h1, h2⟩
    · rw [hr]; rfl
    · have hg : s.completeGap k = s := by
        unfold State.completeGap
        split
        · rename_i e hk
          exact if_neg fun ht => h1 (by rw [hk, ht])
        · rename_i e hk
          exact if_neg fun ht => h2 (by rw [hk, ht])
        all_goals rfl
      rw [hg, ite_self]

/-! ### LINE_READ -/

/-- A byte read as a number in range, and one out of range. -/
theorem inRange_of_toNat {n : Nat} {b : Byte} {k : Fin n} (h : b.toNat = k.val) : inRange n b = some k := by
  unfold inRange
  rw [dif_pos (by rw [h]; exact k.isLt)]
  exact congrArg some (Fin.ext h)

theorem inRange_of_le {n : Nat} {b : Byte} (h : n ≤ b.toNat) : inRange n b = none :=
  dif_neg (by omega)

/-- The bits of a line entry (Table 10-8) as a number. -/
theorem lineBits : ∀ d sf i a : Bool,
    (0#4 ++ BitVec.ofBool d ++ BitVec.ofBool sf ++ BitVec.ofBool i ++ BitVec.ofBool a : Byte) =
      BitVec.ofNat 8 ((if a then 1 else 0) + (if i then 2 else 0) + (if sf then 4 else 0) +
        (if d then 8 else 0)) := by decide

/-- Settles O19: the request is admitted, its owner changes nothing, and each entry is read off its record. -/
theorem lineReadDescribesGroup : Obligations.LineReadDescribesGroup := by
  intro p s f h entry pairEntry
  have hread : ∀ u : State, u.lines = s.lines → u.pairs = s.pairs → u.groups = s.groups → u.held = s.held →
      (∀ l, u.lineEntry l = entry l) ∧ (∀ k, u.pairEntry k = pairEntry k) ∧ ∀ g, u.group g = s.group g := by
    intro u hl hp hg hh
    have hline : ∀ l, u.line l = s.line l := fun l => by simp only [State.line, hl]
    refine ⟨fun l => ?_, fun k => ?_, fun g => by simp only [State.group, hg]⟩
    · have hst : u.holderStation l = s.holderStation l := by
        simp only [State.holderStation, State.heldClaim, hline, hh]
      have hbits := lineBits (s.line l).driveOn (s.line l).safe ((s.line l).polarity == .inverted)
        (s.line l).asserted
      have hholder : (s.line l).holder.getD 0 = (match (s.line l).holder with | none => 0 | some id => id) := by
        cases (s.line l).holder <;> rfl
      have hstation : stationByte (s.holderStation l) =
          (match s.holderStation l with | none => 0xFF | some n => BitVec.ofNat 8 n.val) := by
        cases s.holderStation l <;> rfl
      simp only [State.lineEntry, hline, hst, hbits, hholder, hstation, entry, beq_iff_eq] <;> rfl
    · have hk : u.pair k = s.pair k := by simp only [State.pair, hp]
      simp only [State.pairEntry, hk, pairEntry]
      cases (s.pair k).state <;> rfl
  obtain ⟨hentry, hpair, hgroup⟩ := hread ((s.dequeue p).leased p) rfl rfl rfl rfl
  refine ⟨fun g hg => ?_, fun hg => ?_⟩
  · have hstate : (s.group g).state.byte =
        (match (s.group g).state with | .normal => 0 | .tripped => 1 : Byte) := by
      cases (s.group g).state <;> rfl
    have hmap : (s.group g).map.byte =
        (match (s.group g).map with | .none => 0 | .ga => 1 | .gb => 2 | .either => 3 : Byte) := by
      cases (s.group g).map <;> rfl
    refine congrArg _ (take_admitted_unchanged (owner := lineReadOwner) (outcome := .ok) h (by decide)
      (rowOf_of_request h.2.1) ?_)
    simp only [lineReadOwner, inRange_of_toNat hg, hgroup, funext hentry, funext hpair, hstate, hmap, groupLines,
      groupPairs, List.flatMap_cons, List.flatMap_nil, List.append_nil, List.append_assoc] <;> rfl
  · refine congrArg _ (take_admitted_refused (owner := lineReadOwner) h (by decide) (rowOf_of_request h.2.1) ?_)
    simp only [lineReadOwner, inRange_of_le hg]

end Sys2Proof.Machine
end

section
/-! PAIR: its checks, and what BIND and UNBIND leave (R28, R29). -/

namespace Sys2Proof.Machine

/-- The taking of a request leaves what the checks of PAIR read. -/
theorem pairChecks_dequeue_leased (s : State) (p : StationNo) (f : RequestFrame) :
    pairChecks p f ((s.dequeue p).leased p) = pairChecks p f s := rfl

theorem heldAsPair_iff (s : State) (p : StationNo) (k : PairNo) :
    s.heldAsPair p k = true ↔
      (s.line (primary k)).holder = (s.line (partner k)).holder ∧ s.holds p (primary k) = true := by
  simp [State.heldAsPair]

theorem waitedHalf_iff (s : State) (k : PairNo) :
    s.waitedHalf k = true ↔
      ∃ w ∈ s.waiting, named w.claim.lines (primary k) ≠ named w.claim.lines (partner k) := by
  simp [State.waitedHalf]

theorem targeted_iff (s : State) (p : StationNo) (m : LineMask) :
    s.targeted p m = true ↔ ∃ i o, s.order i = some o ∧ o.station = p ∧ o.body.targets &&& m ≠ 0 := by
  rw [State.targeted, bne_iff_ne, Ne, slotsOn_eq_nil]
  push Not
  rfl

/-- Line records and pair units are apart. -/
theorem setPair_setLine (s : State) (k : PairNo) (l : LineNo) (x : PairUnit) (r : LineRec) :
    (s.setPair k x).setLine l r = (s.setLine l r).setPair k x := rfl

/-- BIND of a bound pair stores the gap. -/
theorem bindPair_of_bound {s : State} {k : PairNo} (h : s.pairBound k = true) (gap : Byte) :
    s.bindPair k gap = s.setPair k { s.pair k with gap := gap } := by
  simp [State.bindPair, h]

/-- BIND of an UNBOUND pair: the partner is deasserted where both lines are ASSERTED, and the levels give the state. -/
theorem bindPair_of_unbound {s : State} {k : PairNo} (h : s.pairBound k = false) (gap : Byte) :
    s.bindPair k gap =
      (s.setLine (partner k) { s.line (partner k) with
        asserted := (s.line (partner k)).asserted && !(s.line (primary k)).asserted }).setPair k
        { state := levelState (s.line (primary k)).asserted (s.line (partner k)).asserted, gap := gap } := by
  have hpp := primary_ne_partner k
  have hback : s.setLine (partner k) { s.line (partner k) with asserted := (s.line (partner k)).asserted } = s :=
    State.setLine_self_same s (partner k)
  unfold State.bindPair State.setFromLevels State.setPairState State.setAsserted
  cases ha : (s.line (primary k)).asserted with
  | false =>
    simp [h, ha, hback, levelState]
  | true =>
    cases hb : (s.line (partner k)).asserted with
    | false =>
      rw [hb] at hback
      simp [h, ha, hback, levelState]
    | true => simp [h, ha, hpp, levelState, setPair_setLine]

/-- The row of PAIR that takes a frame of the operation named. -/
theorem exec_pair_refused {p : StationNo} {s : State} {f : RequestFrame} {c : Instr} (h : s.admits p f .pair)
    (hc : (c = .pairBind p ∧ f.at 1 ≠ 0) ∨ (c = .pairUnbind p ∧ f.at 1 ≠ 1)) {outcome : ReplyCode}
    (ho : pairChecks p f s = .error outcome) :
    exec c s = .next ((s.leased p).answered p f outcome []) := by
  rw [← pairChecks_dequeue_leased] at ho
  rcases hc with ⟨rfl, h1⟩ | ⟨rfl, h1⟩
  · refine congrArg _ (take_admitted_refused (owner := pairBindOwner) h (by decide)
      (rowOfEither_of_request h.2.1 h1) ?_)
    rw [pairBindOwner, ho]
  · refine congrArg _ (take_admitted_refused (owner := pairUnbindOwner) h (by decide)
      (rowOfEither_of_request h.2.1 h1) ?_)
    rw [pairUnbindOwner, ho]

/-- The checks of PAIR on a pair in range and an operation in range (R28). -/
theorem pairChecks_eq {p : StationNo} {f : RequestFrame} {s : State} {k : PairNo} (hk : (f.at 0).toNat = k.val)
    (h1 : f.at 1 = 0 ∨ f.at 1 = 1) :
    pairChecks p f s =
      if !s.heldAsPair p k then .error .paired
      else if f.at 1 = 1 ∧ s.waitedHalf k = true then .error .paired
      else if s.targeted p (lineMask (primary k) ||| lineMask (partner k)) then .error .inUse
      else if f.at 1 = 1 ∧ (s.line (primary k)).safe = true ∧ (s.line (partner k)).safe = true then
        .error .badValue
      else .ok k := by
  unfold pairChecks
  rw [inRange_of_toNat hk]
  dsimp only
  rw [if_neg fun h => h1.elim h.1 h.2]

/-- An accepted PAIR, by what its owner leaves (R29). -/
theorem exec_pair_ok {p : StationNo} {s t u : State} {f : RequestFrame} {row : RequestFrame → Bool}
    {owner : StationNo → RequestFrame → State → OwnerReply} {payload : List Byte} (h : s.admits p f .pair)
    (hrow : row f = true)
    (ho : owner p f ((s.dequeue p).leased p) = { state := u, outcome := .ok, payload := payload })
    (hu : u = { t with ports := (t.dequeue p).ports }) :
    s.take p row owner = t.answered p f .ok payload :=
  (take_admitted_eq h (by decide) hrow ho).trans (replied_eq_answered f .ok payload hu)

/-- Settles O20: the checks in their order, then what BIND and UNBIND leave of the pair. -/
theorem pairBindsAndUnbinds : Obligations.PairBindsAndUnbinds := by
  constructor
  · intro p s f k h hk hholder hholds horders a b
    have hmine := (heldAsPair_iff s p k).mpr ⟨hholder, hholds⟩
    have htargeted : s.targeted p (lineMask (primary k) ||| lineMask (partner k)) = false := by
      rw [Bool.eq_false_iff, Ne, targeted_iff]
      rintro ⟨i, o, hi, hst, hne⟩
      exact hne (horders i o hi hst)
    refine ⟨fun h1 hwait hsafe => ?_, fun h1 => ?_⟩
    · have hhalf : s.waitedHalf k = false := by
        rw [Bool.eq_false_iff, Ne, waitedHalf_iff]
        rintro ⟨w, hw, hne⟩
        exact hne (hwait w hw)
      have hok : pairChecks p f ((s.dequeue p).leased p) = .ok k := by
        rw [pairChecks_dequeue_leased, pairChecks_eq hk (.inr h1)]
        simp [hmine, hhalf, htargeted, h1, hsafe]
      have hrow : rowOfEither .pair 1 0 f = true := rowOfEither_of_request h.2.1 (by rw [h1]; decide)
      refine ⟨fun hb => ?_, fun hb => ?_⟩
      · refine congrArg _ (exec_pair_ok (owner := pairBindOwner)
          (u := ((s.dequeue p).leased p).setPair k { s.pair k with gap := f.at 2 }) h hrow ?_ rfl)
        rw [pairBindOwner, hok]
        dsimp only
        rw [bindPair_of_bound (s := (s.dequeue p).leased p) hb]
        simp [State.pairPayload]
      · refine congrArg _ (exec_pair_ok (owner := pairBindOwner)
          (u := (((s.dequeue p).leased p).setLine (partner k)
            { s.line (partner k) with asserted := b && !a }).setPair k { state := levelState a b, gap := f.at 2 })
          h hrow ?_ rfl)
        rw [pairBindOwner, hok]
        dsimp only
        rw [bindPair_of_unbound (s := (s.dequeue p).leased p) hb]
        simp [State.pairPayload]
        exact ⟨rfl, rfl⟩
    · have hok : pairChecks p f ((s.dequeue p).leased p) = .ok k := by
        rw [pairChecks_dequeue_leased, pairChecks_eq hk (.inl h1)]
        simp [hmine, htargeted, h1]
      refine congrArg _ (exec_pair_ok (owner := pairUnbindOwner)
        (u := ((s.dequeue p).leased p).setPair k { s.pair k with state := .unbound }) h
        (rowOfEither_of_request h.2.1 (by rw [h1]; decide)) ?_ rfl)
      rw [pairUnbindOwner, hok]
      simp [State.unbindPair, State.setPairState, State.pairPayload, PairState.byte]
  · intro p s f c h hc refused
    refine ⟨fun hbad => exec_pair_refused h hc ?_, fun k hk h1 => ?_⟩
    · unfold pairChecks
      cases hr : inRange 8 (f.at 0) with
      | none => rfl
      | some k =>
        refine if_pos (hbad.resolve_left fun hle => ?_)
        rw [inRange_of_le hle] at hr; cases hr
    · intro mine half targeted
      have hmine : s.heldAsPair p k = true ↔ mine := heldAsPair_iff s p k
      have hhalf : s.waitedHalf k = true ↔ half := waitedHalf_iff s k
      have htargeted : s.targeted p (lineMask (primary k) ||| lineMask (partner k)) = true ↔ targeted :=
        targeted_iff s p _
      have hchecks := pairChecks_eq (p := p) (s := s) hk h1
      simp only [hhalf, htargeted, Bool.not_eq_true', ← Bool.not_eq_true, hmine] at hchecks
      refine ⟨fun hm => ?_, fun hm ho hh => ?_, fun hm hh ht => ?_, fun hm ho hh ht hs hs' => ?_⟩ <;>
        refine exec_pair_refused h hc (hchecks.trans ?_)
      · rw [if_pos hm]
      · rw [if_neg (not_not_intro hm), if_pos ⟨ho, hh⟩]
      · rw [if_neg (not_not_intro hm), if_neg hh, if_pos ht]
      · rw [if_neg (not_not_intro hm), if_neg fun e => hh e.2, if_neg ht, if_pos ⟨ho, hs, hs'⟩]

end Sys2Proof.Machine
end

section
/-! SHAPE: its settings and checks, what an accepted one leaves (R31, R32, R27), and the pins (R17). -/

namespace Sys2Proof.Machine

/-! ### The settings of the frame -/

/-- The setting that a byte in range names: 0xFF is KEEP, 1 and 0 are the two values (Table 2-5). -/
def settingOf {α : Type} (b : Byte) (off on : α) : Setting α :=
  if b = 0xFF then .keep else if b = 1 then .value on else .value off

theorem settingOf_apply {α : Type} (b : Byte) (off on old : α) :
    (settingOf b off on).apply old = if b = 0xFF then old else if b = 1 then on else off := by
  unfold settingOf
  split
  · rfl
  · split <;> rfl

theorem polaritySetting_eq (b : Byte) :
    polaritySetting b = if b = 0 ∨ b = 1 ∨ b = 0xFF then some (settingOf b .normal .inverted) else none := by
  by_cases h0 : b = 0
  · subst h0; rfl
  by_cases h1 : b = 1
  · subst h1; rfl
  by_cases hf : b = 0xFF
  · subst hf; rfl
  rw [polaritySetting, if_neg h0, if_neg h1, if_neg hf, if_neg (by simp only [h0, h1, hf, or_self, not_false_eq_true])]

theorem flagSetting_eq (b : Byte) :
    flagSetting b = if b = 0 ∨ b = 1 ∨ b = 0xFF then some (settingOf b false true) else none := by
  by_cases h0 : b = 0
  · subst h0; rfl
  by_cases h1 : b = 1
  · subst h1; rfl
  by_cases hf : b = 0xFF
  · subst hf; rfl
  rw [flagSetting, if_neg h0, if_neg h1, if_neg hf, if_neg (by simp only [h0, h1, hf, or_self, not_false_eq_true])]

/-- The settings of a SHAPE whose setting bytes are in range. -/
def RequestFrame.settings (f : RequestFrame) : ShapeForm :=
  ⟨settingOf (f.at 2) .normal .inverted, settingOf (f.at 3) false true, settingOf (f.at 4) false true⟩

/-- Check 1 of R31: the mask names a line, and each setting byte is one of its values. -/
theorem shapeForm_eq (f : RequestFrame) :
    f.shapeForm = if f.half 0 ≠ 0 ∧ ∀ b ∈ [f.at 2, f.at 3, f.at 4], b = 0 ∨ b = 1 ∨ b = 0xFF then
      some f.settings else none := by
  have hall : (∀ b ∈ [f.at 2, f.at 3, f.at 4], b = 0 ∨ b = 1 ∨ b = 0xFF) ↔
      (f.at 2 = 0 ∨ f.at 2 = 1 ∨ f.at 2 = 0xFF) ∧ (f.at 3 = 0 ∨ f.at 3 = 1 ∨ f.at 3 = 0xFF) ∧
      (f.at 4 = 0 ∨ f.at 4 = 1 ∨ f.at 4 = 0xFF) := by
    simp only [List.forall_mem_cons, List.not_mem_nil, false_imp_iff, implies_true, and_true]
  rw [RequestFrame.shapeForm, polaritySetting_eq, flagSetting_eq, flagSetting_eq,
    if_congr (and_congr_right' hall) rfl rfl]
  by_cases hm : f.half 0 = 0
  · rw [if_pos hm, if_neg fun h => h.1 hm]
  rw [if_neg hm]
  by_cases h2 : f.at 2 = 0 ∨ f.at 2 = 1 ∨ f.at 2 = 0xFF
  · by_cases h3 : f.at 3 = 0 ∨ f.at 3 = 1 ∨ f.at 3 = 0xFF
    · by_cases h4 : f.at 4 = 0 ∨ f.at 4 = 1 ∨ f.at 4 = 0xFF
      · rw [if_pos h2, if_pos h3, if_pos h4, if_pos ⟨hm, h2, h3, h4⟩]
        rfl
      · rw [if_pos h2, if_pos h3, if_neg h4]
        exact (if_neg fun h => h4 h.2.2.2).symm
    · rw [if_pos h2, if_neg h3]
      exact (if_neg fun h => h3 h.2.2.1).symm
  · rw [if_neg h2]
    exact (if_neg fun h => h2 h.2.1).symm

/-! ### The checks after the first -/

theorem holdsAll_iff (s : State) (p : StationNo) (m : LineMask) :
    s.holdsAll p m = true ↔ ∀ l, named m l = true → s.holds p l = true := by
  simp [State.holdsAll, mem_linesOf]

theorem shapeClash_iff (s : State) (m : LineMask) (x : ShapeForm) :
    s.shapeClash m x = true ↔
      ∃ k, s.pairBound k = true ∧ (named m (primary k) = true ∨ named m (partner k) = true) ∧
        s.safeAfter m x (primary k) = true ∧ s.safeAfter m x (partner k) = true := by
  simp [State.shapeClash, and_assoc]

/-- The owner's part of a SHAPE in range, by the state before the request was taken. -/
theorem shapeOwner_settings {f : RequestFrame} (p : StationNo) (s : State)
    (good : f.half 0 ≠ 0 ∧ ∀ b ∈ [f.at 2, f.at 3, f.at 4], b = 0 ∨ b = 1 ∨ b = 0xFF) :
    shapeOwner p f ((s.dequeue p).leased p) =
      if ¬∀ l, named (f.half 0) l = true → s.holds p l = true then refuse ((s.dequeue p).leased p) .notHolder
      else if s.targeted p (f.half 0) = true then refuse ((s.dequeue p).leased p) .inUse
      else if s.shapeClash (f.half 0) f.settings = true then refuse ((s.dequeue p).leased p) .badValue
      else { state := ((s.dequeue p).leased p).shape (f.half 0) f.settings, outcome := .ok, payload := [] } := by
  unfold shapeOwner
  rw [shapeForm_eq, if_pos good]
  simp only [← holdsAll_iff, Bool.not_eq_true, ← Bool.not_eq_true']
  rfl

/-! ### What an accepted SHAPE leaves -/

/-- The safe level of line `l` changes while its group is TRIPPED (R32). -/
def State.resafes (s : State) (m : LineMask) (x : ShapeForm) (l : LineNo) : Bool :=
  (s.group (groupOf l)).state == .tripped && (s.safeAfter m x l != (s.line l).safe)

/-- The bound pair `k` has a line whose safe level changes while its group is TRIPPED. -/
def State.resafesPair (s : State) (m : LineMask) (x : ShapeForm) (k : PairNo) : Bool :=
  s.pairBound k && (s.resafes m x (primary k) || s.resafes m x (partner k))

theorem mem_resafed (s : State) (m : LineMask) (x : ShapeForm) (l : LineNo) :
    l ∈ s.resafed m x ↔ s.resafes m x l = true := by
  have hg : (!s.groupNormal (groupOf l)) = ((s.group (groupOf l)).state == .tripped) := by
    unfold State.groupNormal
    cases (s.group (groupOf l)).state <;> rfl
  rw [State.resafed, List.mem_filter, mem_linesOf, hg, State.resafes, State.safeAfter]
  by_cases hn : named m l = true <;> simp [hn]

theorem exists_mem_resafed (s : State) (m : LineMask) (x : ShapeForm) (k : PairNo) :
    (∃ l ∈ s.resafed m x, pairOf l = k) ↔ (s.resafes m x (primary k) || s.resafes m x (partner k)) = true := by
  simp only [mem_resafed, Bool.or_eq_true]
  constructor
  · rintro ⟨l, hl, rfl⟩
    rcases eq_primary_or_partner l with h | h <;> rw [← h]
    · exact .inl hl
    · exact .inr hl
  · rintro (h | h)
    · exact ⟨_, h, pairOf_primary k⟩
    · exact ⟨_, h, pairOf_partner k⟩

/-- The settings of a SHAPE, on the lines of its mask, leave every pair as it is bound. -/
theorem shapeLines_pairBound (s : State) (m : LineMask) (x : ShapeForm) (k : PairNo) :
    ((linesOf m).foldl (State.shapeLine x) s).pairBound k = s.pairBound k := by
  unfold State.pairBound; rw [shapeLines_pair]

theorem shapeLines_safe (s : State) (m : LineMask) (x : ShapeForm) (l : LineNo) :
    (((linesOf m).foldl (State.shapeLine x) s).line l).safe = s.safeAfter m x l := by
  rw [shapeLines_line, State.safeAfter]; split <;> rfl

theorem shape_line (s : State) (m : LineMask) (x : ShapeForm) (l : LineNo) :
    (s.shape m x).line l = { s.line l with
      polarity := if named m l then x.polarity.apply (s.line l).polarity else (s.line l).polarity
      safe := s.safeAfter m x l
      driveOn := if named m l then x.drive.apply (s.line l).driveOn else (s.line l).driveOn
      asserted := if s.resafesPair m x (pairOf l) || s.resafes m x l then s.safeAfter m x l
        else (s.line l).asserted } := by
  have hmoved : (l ∈ s.resafed m x ∨
      s.pairBound (pairOf l) = true ∧ ∃ y ∈ s.resafed m x, pairOf y = pairOf l) ↔
      (s.resafesPair m x (pairOf l) || s.resafes m x l) = true := by
    rw [exists_mem_resafed, mem_resafed, or_comm, State.resafesPair,
      Bool.or_eq_true (_ && _), Bool.and_eq_true]
  rw [State.shape, foldl_toSafe_line, shapeLines_pairBound, if_congr hmoved rfl rfl, shapeLines_safe,
    shapeLines_line]
  by_cases hn : named m l = true <;> simp only [State.safeAfter, hn] <;> split <;> rfl

theorem shape_pair (s : State) (m : LineMask) (x : ShapeForm) (k : PairNo) :
    (s.shape m x).pair k = if s.resafesPair m x k then
        { s.pair k with state := levelState (s.safeAfter m x (primary k)) (s.safeAfter m x (partner k)) }
      else s.pair k := by
  have hmoved : (s.pairBound k = true ∧ ∃ y ∈ s.resafed m x, pairOf y = k) ↔ s.resafesPair m x k = true := by
    rw [exists_mem_resafed, State.resafesPair, Bool.and_eq_true]
  rw [State.shape, foldl_toSafe_pair, shapeLines_pairBound, if_congr hmoved rfl rfl, shapeLines_safe,
    shapeLines_safe, shapeLines_pair]

/-- The reply of an owner that changes only line records and pair units. -/
theorem replied_of_onlyLines {s u : State} {p : StationNo} (h : OnlyLines ((s.dequeue p).leased p) u)
    (f : RequestFrame) (outcome : ReplyCode) (payload : List Byte) :
    u.replied p f outcome payload =
      ({ s.leased p with lines := u.lines, pairs := u.pairs } : State).answered p f outcome payload :=
  replied_eq_answered f outcome payload (h.trans rfl)

/-! ### The three clauses -/

/-- An accepted SHAPE (R32), by the settings of its frame. -/
theorem exec_shape_accepted {p : StationNo} {s : State} {f : RequestFrame} (h : s.admits p f .shape)
    (good : f.half 0 ≠ 0 ∧ ∀ b ∈ [f.at 2, f.at 3, f.at 4], b = 0 ∨ b = 1 ∨ b = 0xFF)
    (held : ∀ l, named (f.half 0) l = true → s.holds p l = true) (free : s.targeted p (f.half 0) = false)
    (clear : s.shapeClash (f.half 0) f.settings = false) :
    exec (.shape p) s = .next (({ s.leased p with
      lines := (((s.dequeue p).leased p).shape (f.half 0) f.settings).lines
      pairs := (((s.dequeue p).leased p).shape (f.half 0) f.settings).pairs } : State).answered p f .ok []) := by
  refine congrArg _ ((take_admitted_eq (owner := shapeOwner) h (by decide) (rowOf_of_request h.2.1) ?_).trans
    (replied_of_onlyLines (shape_frame _ _ _) f .ok []))
  rw [shapeOwner_settings p s good, if_neg (not_not_intro held), if_neg (by simp [free]), if_neg (by simp [clear])]

theorem exec_shape_refused {p : StationNo} {s : State} {f : RequestFrame} (h : s.admits p f .shape)
    {outcome : ReplyCode}
    (ho : shapeOwner p f ((s.dequeue p).leased p) = refuse ((s.dequeue p).leased p) outcome) :
    exec (.shape p) s = .next ((s.leased p).answered p f outcome []) :=
  congrArg _ (take_admitted_refused (owner := shapeOwner) h (by decide) (rowOf_of_request h.2.1) ho)

/-- R17, Table 2-2: the pin of a line outside power-on reset. -/
theorem linePin_of_running {s : State} (l : LineNo) (h : s.inReset = false) : s.linePin l = (s.line l).pin := by
  simp [State.linePin, h]

theorem safeAfter_settings (s : State) (f : RequestFrame) (l : LineNo) :
    s.safeAfter (f.half 0) f.settings l = if named (f.half 0) l then
      (if f.at 3 = 0xFF then (s.line l).safe else if f.at 3 = 1 then true else false) else (s.line l).safe := by
  rw [State.safeAfter, RequestFrame.settings, settingOf_apply]

/-- Settles O18: the checks in their order, then the lines and the pairs of the shaped state. -/
theorem shapeSetsLines : Obligations.ShapeSetsLines := by
  refine ⟨?_, ?_, ?_⟩
  · intro p s f h m keepOr safeOf moved pairMoved hm hbytes hheld horders hclear
    have hsafe : ∀ l, s.safeAfter m f.settings l = safeOf l := safeAfter_settings s f
    have hmoved : ∀ l, s.resafes m f.settings l = moved l := fun l => by rw [State.resafes, hsafe]
    have hpair : ∀ k, s.resafesPair m f.settings k = pairMoved k := fun k => by
      rw [State.resafesPair, hmoved, hmoved]
    have hfree : s.targeted p m = false := by
      rw [Bool.eq_false_iff, Ne, targeted_iff]
      rintro ⟨i, o, hi, hst, hne⟩
      exact hne (horders i o hi hst)
    have hnoclash : s.shapeClash m f.settings = false := by
      rw [Bool.eq_false_iff, Ne, shapeClash_iff]
      rintro ⟨k, hk, hn, hsafes⟩
      rw [hsafe, hsafe] at hsafes
      exact hclear k hk hn hsafes
    refine ⟨_, exec_shape_accepted h ⟨hm, hbytes⟩ hheld hfree hnoclash, rfl, fun l => ?_, fun k => ?_⟩
    · refine (shape_line ((s.dequeue p).leased p) m f.settings l).trans ?_
      rw [← hsafe, ← hmoved, ← hpair]
      simp only [RequestFrame.settings, settingOf_apply]
      rfl
    · refine (shape_pair ((s.dequeue p).leased p) m f.settings k).trans ?_
      rw [← hsafe, ← hsafe, ← hpair]
      rfl
  · intro p s f h m refused good held targeted safeOf
    have htargeted : s.targeted p m = true ↔ targeted := targeted_iff s p m
    refine ⟨fun hbad => exec_shape_refused h ?_, fun hg hh => exec_shape_refused h ?_,
      fun hg hh ht => exec_shape_refused h ?_, fun hg hh ht hc => exec_shape_refused h ?_⟩
    · rw [shapeOwner, shapeForm_eq, if_neg hbad]
    · rw [shapeOwner_settings p s hg, if_pos hh]
    · rw [shapeOwner_settings p s hg, if_neg (not_not_intro hh), if_pos (htargeted.mpr ht)]
    · have hsafe : ∀ l, s.safeAfter m f.settings l = safeOf l := fun l => by
        rw [safeAfter_settings]
        by_cases hn : named m l = true
        · by_cases h3 : f.at 3 = 0xFF
          · rw [if_pos hn, if_pos h3]
            exact (if_neg fun e => e.2 h3).symm
          · rw [if_pos hn, if_neg h3]
            exact (if_pos ⟨hn, h3⟩).symm
        · rw [if_neg hn]
          exact (if_neg fun e => hn e.1).symm
      obtain ⟨k, hk, hn, hp, hq⟩ := hc
      have hclash : s.shapeClash m f.settings = true :=
        (shapeClash_iff s m f.settings).mpr ⟨k, hk, hn, by rwa [hsafe], by rwa [hsafe]⟩
      rw [shapeOwner_settings p s hg, if_neg (not_not_intro hh), if_neg (mt htargeted.mp ht), if_pos hclash]
  · intro s l hr
    rw [linePin_of_running l hr, LineRec.pin]
    dsimp only
    refine ⟨fun hd => if_neg (by simp [hd]), fun hd ha hp => ?_, fun hd ha hp => ?_, fun hd ha hp => ?_,
      fun hd ha hp => ?_⟩ <;>
      rw [if_pos hd, ha, hp]

end Sys2Proof.Machine
end

section
/-! The laws of the claim table and of the waiting list alone, kept by every step. They read no order and no pair, so
that what was proved of a state with the law of orders is used on the state without its orders (`State.orderless`). -/

namespace Sys2Proof.Machine

/-- The laws of claims and of the waiting list (R36, R37, R42). -/
abbrev State.tableLaws (s : State) : Prop := s.claimLaw ∧ s.waitLaw

/-! ### What the laws read -/

/-- The HELD claims and the holder fields stand, no session ends, and waiting claims may leave: the laws are kept. -/
theorem tableLaws_of {s t : State} (h : s.tableLaws) (hh : t.held = s.held)
    (hw : (t.waiting.map (fun w => w.claim)).Sublist (s.waiting.map (fun w => w.claim)))
    (hl : ∀ l, (t.line l).holder = (s.line l).holder)
    (hb : ∀ n, s.isBound n = true → t.isBound n = true) : t.tableLaws := by
  have a : Holding s { t with pairs := s.pairs, slots := s.slots } :=
    ⟨hh, hw, hl, hb, fun _ hk => hk, fun _ o ho => ⟨o, ho, SameTask.refl o⟩⟩
  exact ⟨a.claimLaw h.1, waitLaw_of_sublist h.2 hw⟩

theorem Holding.tableLaws {s t : State} (a : Holding s t) (h : s.tableLaws) : t.tableLaws :=
  tableLaws_of h a.held a.waiting a.holder a.bound

/-- Claims, lines and sessions stand. -/
theorem tableLaws_of_same {s t : State} (h : s.tableLaws) (hh : t.held = s.held) (hw : t.waiting = s.waiting)
    (hl : t.lines = s.lines) (hst : t.stations = s.stations) : t.tableLaws :=
  tableLaws_of h hh (by rw [hw]) (fun l => by simp only [State.line, hl])
    fun n hn => by simpa only [State.isBound, State.station, hst] using hn

/-- The state without its orders. -/
def State.orderless (s : State) : State := { s with slots := Vector.replicate 128 ⟨0, none⟩ }

/-- Without orders the law of orders holds, and the laws of the claim table are those of the state itself. -/
theorem orderless_holdingLaws {s : State} (h : s.tableLaws) : s.orderless.holdingLaws :=
  ⟨h.1, h.2, fun i o ho => by simp [State.order, State.slot, State.orderless] at ho⟩

/-- What is lawful of the state without its orders keeps the laws of the claim table. -/
theorem Lawful.tableLaws_orderless {s t : State} (a : Lawful s.orderless t) (h : s.tableLaws) : t.tableLaws := by
  obtain ⟨hc, hw, -⟩ := a.laws (orderless_holdingLaws h)
  exact ⟨hc, hw⟩

/-! ### Grants and new claims -/

theorem Grants.tableLaws {s t : State} (a : Grants s t) (h : s.tableLaws) : t.tableLaws := by
  obtain ⟨ht, hb⟩ := (claimLaw_iff s).mp h.1
  refine ⟨(claimLaw_iff t).mpr ⟨a.table ht, fun c hc => ?_⟩, waitLaw_of_sublist h.2 (a.waiting.map _)⟩
  simpa only [State.isBound, State.station, a.stations] using hb c (a.claims.subset hc)

@[simp] theorem grant_held (s : State) (c : Claim) : (s.grant c).held = s.held ++ [c] := by rw [grant_eq]

@[simp] theorem grant_waiting (s : State) (c : Claim) : (s.grant c).waiting = s.waiting := by rw [grant_eq]

@[simp] theorem grant_stations (s : State) (c : Claim) : (s.grant c).stations = s.stations := by rw [grant_eq]

theorem orderless_nextClaimId (s : State) : s.orderless.nextClaimId = s.nextClaimId :=
  nextClaimId_congr rfl rfl rfl

theorem tableLaws_claimOwner {p : StationNo} {f : RequestFrame} {s : State} (hb : s.isBound p = true)
    (h : s.tableLaws) : (claimOwner p f s).state.tableLaws := by
  unfold claimOwner
  split
  · exact h
  · rename_i hr
    have hl : f.half 0 ≠ 0 := by
      intro e; simp [claimRefusal, e] at hr
    split
    · rename_i hf
      rw [Bool.and_eq_true] at hf
      have hg := lawful_grantClaim (s := s.orderless) (c := s.newClaim p f) hb hl (orderless_nextClaimId s).symm hf.1
      have ht := hg.tableLaws_orderless h
      rw [orderless_nextClaimId] at ht
      refine tableLaws_of ht ?_ ?_ (fun l => ?_) fun n hn => ?_
      · rw [grant_held, grant_held]; rfl
      · rw [grant_waiting, grant_waiting]; exact List.Sublist.refl _
      · rw [grant_line, grant_line]; rfl
      · simp only [State.isBound, State.station, grant_stations] at hn ⊢; exact hn
    · split
      · exact h
      · split
        · exact h
        · rename_i hf
          have hq := lawful_queueClaim (s := s.orderless) (w := ⟨s.newClaim p f, f.half 3⟩) hb hl
            (orderless_nextClaimId s).symm (by rwa [Bool.not_eq_true] at hf)
          exact tableLaws_of_same (hq.tableLaws_orderless h) rfl rfl rfl rfl

/-! ### Claims given up, releases and teardowns -/

theorem tableLaws_giveUp {s : State} (h : s.tableLaws) {c : Claim} (hc : c ∈ s.held) (a : LineAction) :
    (s.giveUp c a).tableLaws := by
  have h0 := holdingLaws_giveUp (orderless_holdingLaws h) hc a fun i o ho => by
    simp [State.order, State.slot, State.orderless] at ho
  refine tableLaws_of ⟨h0.1, h0.2.1⟩ ?_ ?_ (fun l => ?_) fun n hn => ?_
  · rw [giveUp_held, giveUp_held]; rfl
  · rw [giveUp_waiting, giveUp_waiting]; exact List.Sublist.refl _
  · rw [giveUp_line, giveUp_line]; rfl
  · simp only [State.isBound, (giveUp_frame _ c a).station] at hn ⊢; exact hn

theorem tableLaws_grantScan {s : State} (h : s.tableLaws) : s.grantScan.tableLaws := (grants_grantScan s).tableLaws h

theorem tableLaws_filterWaiting {s : State} (h : s.tableLaws) (q : WaitingClaim → Bool) :
    ({ s with waiting := s.waiting.filter q } : State).tableLaws := (keeps_filterWaiting s q).tableLaws h

theorem tableLaws_releaseOwner (p : StationNo) (f : RequestFrame) {s : State} (h : s.tableLaws) :
    (releaseOwner p f s).state.tableLaws := by
  unfold releaseOwner
  split
  · exact h
  · split
    · rename_i c hc
      have hk : Keeps s (s.removeOrders (s.slotsOn p c.lines)) := keeps_work.removeOrders s _
      refine tableLaws_grantScan (tableLaws_giveUp (hk.tableLaws h) ?_ _)
      rw [hk.held]; exact List.mem_of_find?_eq_some hc
    · split
      · exact tableLaws_grantScan (tableLaws_filterWaiting h _)
      · exact h

theorem tableLaws_expireWaits {s : State} (h : s.tableLaws) : s.expireWaits.tableLaws := by
  unfold State.expireWaits
  split
  · exact h
  · have hk : ∀ u : State, Keeps u (s.expired.foldl State.announceExpiry u) :=
      keeps_foldl (fun _ _ => (appendNotice_frame _ _ _).keeps) _
    exact tableLaws_grantScan ((hk _).tableLaws (tableLaws_filterWaiting h _))

/-- What a teardown leaves of the claims, before its grant scan (R51): the claims of the other stations. -/
theorem tableLaws_revoked {s : State} (h : s.tableLaws) (n : StationNo) (lapsed : Bool) {u v : State}
    (hu : u = (s.endSession n lapsed).orderTeardown n)
    (hv : v = u.revoke (u.held.filter (fun c => c.station == n))) :
    ({ v with waiting := v.waiting.filter (fun w => w.claim.station != n) } : State).tableLaws := by
  generalize hu0 : (s.orderless.endSession n lapsed).orderTeardown n = u0
  have h0 := holdingLaws_revoked (orderless_holdingLaws h) n lapsed hu0.symm rfl
  have hst : u0.stations = u.stations := by rw [hu, ← hu0, orderTeardown_eq, orderTeardown_eq]; rfl
  obtain ⟨hheld, hwait, hlines, -⟩ := orderTeardown_left s n lapsed
  obtain ⟨hheld0, hwait0, hlines0, -⟩ := orderTeardown_left s.orderless n lapsed
  rw [← hu] at hheld hwait hlines
  rw [hu0] at hheld0 hwait0 hlines0
  have hline : ∀ l, u.line l = u0.line l := fun l => by simp only [State.line, hlines, hlines0]; rfl
  have hh : u.held = u0.held := hheld.trans hheld0.symm
  have hf : OnlyClaims u v := by rw [hv]; exact revoke_frame u _
  refine tableLaws_of ⟨h0.1, h0.2.1⟩ ?_ ?_ (fun l => ?_) fun m hm => ?_
  · show v.held = _
    rw [hv, hh, revoke_held, revoke_held, hh]
  · show List.Sublist ((v.waiting.filter _).map _) _
    dsimp only
    rw [hv, revoke_waiting, revoke_waiting, hwait, hwait0]
    exact List.Sublist.refl _
  · show (v.line l).holder = ((u0.revoke _).line l).holder
    rw [hv, revoke_line, revoke_line, hline, hh]
  · have hm' : (u0.revoke (u0.held.filter fun c => c.station == n)).isBound m = true := hm
    show v.isBound m = true
    rw [isBound_iff, (revoke_frame u0 _).station] at hm'
    rw [isBound_iff, hf.station]
    simpa only [State.station, hst] using hm'

theorem tableLaws_teardown {s : State} (h : s.tableLaws) (n : StationNo) (lapsed : Bool) :
    (s.teardown n lapsed).tableLaws := by
  generalize hu : (s.endSession n lapsed).orderTeardown n = u
  generalize hv : u.revoke (u.held.filter (fun c => c.station == n)) = v
  have hscan := tableLaws_grantScan (tableLaws_revoked h n lapsed hu.symm hv.symm)
  generalize hw : ({ v with waiting := v.waiting.filter (fun w => w.claim.station != n) } : State).grantScan = w
    at hscan
  have he : s.teardown n lapsed = (w.captureTeardown n).disarm n := by rw [← hw, ← hv, ← hu]; rfl
  rw [he]
  unfold State.disarm
  split <;> exact tableLaws_of_same hscan rfl rfl rfl rfl

theorem tableLaws_lapse {s : State} (n : StationNo) (h : s.tableLaws) : (s.lapse n).tableLaws := by
  unfold State.lapse; split
  · exact tableLaws_teardown h n true
  · exact h

theorem tableLaws_breakSession {s : State} (h : s.tableLaws) (p : StationNo) : (s.breakSession p).tableLaws := by
  unfold State.breakSession
  split
  · exact tableLaws_teardown h p false
  · rename_i hl
    exact (keeps_setStation s p _ fun hb => by rw [isBound_iff, hl] at hb; cases hb).tableLaws h
  · exact h

/-! ### Owners that add an order or bind a pair -/

theorem tableLaws_bindPair {s : State} (h : s.tableLaws) (k : PairNo) (gap : Byte) :
    (s.bindPair k gap).tableLaws := by
  unfold State.bindPair
  dsimp only
  split
  · exact h
  · split
    · exact (holding_setAsserted s (partner k) false).tableLaws h
    · exact h

theorem tableLaws_postOwner (p : StationNo) (f : RequestFrame) {s : State} (h : s.tableLaws) :
    (postOwner p f s).state.tableLaws := by
  unfold postOwner
  split
  · exact h
  · unfold postArmed
    split
    · exact h
    · split <;> exact h
  · split
    · unfold postFuture; split <;> exact h
    · exact h
    · exact h
    · unfold postLateFire
      split
      · exact h
      · refine (keeps_work.fireEdge (order_setOrder _ _ _) (SameTask.refl _) _).tableLaws ?_
        exact (keeps_work.fireDue s).tableLaws h

/-- Every owner keeps the laws of the claim table. -/
theorem tableLaws_rowOwner {c : Instr} {p : StationNo} {row : RequestFrame → Bool} {f : RequestFrame} {s : State}
    (hc : requestRow c = some (p, row)) (hrow : row f = true) (hf : s.commonRefusal p f = none)
    (h : s.tableLaws) : (rowOwner c p f s).state.tableLaws := by
  cases c with
  | bind => exact (keeps_bindOwner p f s).tableLaws h
  | unbind => exact tableLaws_teardown h p false
  | portStatus => exact (keeps_portStatusOwner p f s).tableLaws h
  | timeStartImmediate => exact (keeps_timeStartImmediateOwner p f s).tableLaws h
  | timeStartOnMark => exact (keeps_timeStartOnMarkOwner p f s).tableLaws h
  | timeStop => exact (keeps_timeStopOwner p f s).tableLaws h
  | claim =>
    cases hc
    exact tableLaws_claimOwner (bound_of_passes (request_of_rowOf hrow) hf nofun nofun) h
  | release => exact tableLaws_releaseOwner p f h
  | shape => exact (keeps_shapeOwner p f s).tableLaws h
  | lineRead => show (lineReadOwner p f s).state.tableLaws; unfold lineReadOwner; split <;> exact h
  | pairBind =>
    show (pairBindOwner p f s).state.tableLaws
    unfold pairBindOwner
    split
    · exact h
    · exact tableLaws_bindPair h _ _
  | pairUnbind => exact (keeps_pairUnbindOwner p f s).tableLaws h
  | post => exact tableLaws_postOwner p f h
  | cancelNow => exact (keeps_cancelNowOwner p f s).tableLaws h
  | cancelAtEnd => exact (keeps_cancelAtEndOwner p f s).tableLaws h
  | revise => exact (keeps_reviseOwner p f s).tableLaws h
  | flush => exact (keeps_flushOwner p f s).tableLaws h
  | orderRead => show (orderReadOwner p f s).state.tableLaws; unfold orderReadOwner; split <;> exact h
  | guardMap => exact (keeps_guardMapOwner p f s).tableLaws h
  | rearm => exact (keeps_rearmOwner p f s).tableLaws h
  | subscribe => exact (keeps_subscribeOwner p f s).tableLaws h
  | unsubscribe => exact (keeps_unsubscribeOwner p f s).tableLaws h
  | readCaptures => exact (keeps_readCapturesOwner p f s).tableLaws h
  | _ => exact h

/-- Every taking and every event keeps the laws of the claim table. -/
theorem tableLaws_keptBySteps : KeptBySteps State.tableLaws where
  leases a h := a.keeps.tableLaws h
  lapse _ n h := tableLaws_lapse n h
  owner hc hrow hf h := tableLaws_rowOwner hc hrow hf h
  pending _ _ h := h
  fireDue s h := (keeps_work.fireDue s).tableLaws h
  completeGap s k h := (keeps_completeGap s k).tableLaws h
  sample s c level h := (keeps_work.sample s c level).tableLaws h
  activate s i h := (keeps_work.activate s i).tableLaws h
  setGuard s i a h := (keeps_work.setGuard s i a).tableLaws h
  expireWaits _ h := tableLaws_expireWaits h
  markEdge s h := (keeps_markEdge s).tableLaws h
  armExpiry s h := (keeps_armExpiry s).tableLaws h
  advance _ h := h
  leaseUnitEnds s h := (keeps_leaseUnitEnds s).tableLaws h
  armUnitEnds _ h := h
  breakSession _ p h := tableLaws_breakSession h p
  inPowerOnReset _ _ := tableLaws_of_same ⟨reset_claimLaw, reset_waitLaw⟩ rfl rfl rfl rfl
  powerOn _ _ _ _ _ _ := tableLaws_of_same ⟨reset_claimLaw, reset_waitLaw⟩ rfl rfl rfl rfl

/-- Settles O55: claims change by CLAIM, RELEASE, the two expiries and the ends of a session alone, and each of them
keeps the laws. -/
theorem stepKeepsClaimTable : Obligations.StepKeepsClaimTable :=
  fun _ _ hc hw h => tableLaws_keptBySteps.step h ⟨hc, hw⟩

end Sys2Proof.Machine
end

section
/-! Claim ids and CLAIM: the id counter stops at the first id that no claim has (R37), and a CLAIM by its checks in
order, granted at once, queued or refused (R38 to R41). -/

namespace Sys2Proof.Machine

/-! ### Claim ids (R37) -/

/-- The id counter never stands at 0 once it has left an id other than 0. -/
theorem stepForward_iterate_ne_zero {id : Byte} (h : id ≠ 0) (j : Nat) : stepForward^[j] id ≠ 0 := fun e => by
  have := stepForward_iterate h j
  rw [e] at this
  cases this

/-- The ids of one round of the counter are apart, so that there are as many claims as used ids passed over. -/
theorem length_of_ids_used {s : State} {id : Byte} (h : id ≠ 0) {m : Nat} (hm : m ≤ 255)
    (hused : ∀ j < m, s.claimIdUsed (stepForward^[j] id) = true) : m ≤ s.claims.length := by
  have hsub : (List.range m).map (fun j => stepForward^[j] id) ⊆ s.claims.map (fun c => c.id) := by
    intro x hx
    obtain ⟨j, hj, rfl⟩ := List.mem_map.mp hx
    obtain ⟨c, hc, e⟩ := (claimIdUsed_iff s _).mp (hused j (List.mem_range.mp hj))
    exact List.mem_map.mpr ⟨c, hc, e⟩
  have hnd : ((List.range m).map (fun j => stepForward^[j] id)).Nodup := by
    refine List.Nodup.map_on (fun i hi j hj e => ?_) List.nodup_range
    have := congrArg BitVec.toNat e
    rw [stepForward_iterate h, stepForward_iterate h] at this
    rw [List.mem_range] at hi hj
    omega
  simpa using (List.subperm_of_subset hnd hsub).length_le

/-- Settles O22: with fewer than 255 claims not all 255 ids are used, so that the counter stops at an unused one. -/
theorem claimIdIsFirstFree : Obligations.ClaimIdIsFirstFree := by
  intro s hlen
  have h0 := stepForward_ne_zero s.claimCounter
  obtain ⟨n, hn, he, hused, hfree⟩ := idFrom_spec s 254 (stepForward s.claimCounter)
  have hnext : s.nextClaimId = stepForward^[n] (stepForward s.claimCounter) := he
  have hunused : s.claimIdUsed s.nextClaimId = false := by
    rcases Nat.lt_or_ge n 254 with hlt | hge
    · exact hfree hlt
    · by_contra hu
      rw [Bool.not_eq_false, hnext] at hu
      have := length_of_ids_used h0 (m := n + 1) (by omega) fun j hj => by
        rcases Nat.lt_succ_iff_lt_or_eq.mp hj with hj | rfl
        · exact hused j hj
        · exact hu
      omega
  refine ⟨?_, fun c hc e => ?_, n, by omega, hnext, fun j hj => ?_⟩
  · rw [hnext]; exact stepForward_iterate_ne_zero h0 n
  · exact Bool.eq_false_iff.mp hunused ((claimIdUsed_iff s _).mpr ⟨c, hc, e⟩)
  · exact (claimIdUsed_iff s _).mp (hused j hj)

/-! ### The checks of CLAIM (R38) -/

/-- A release or loss action in range (R30). -/
theorem lineAction_ofByte {b : Byte} (h : b = 0 ∨ b = 1) :
    LineAction.ofByte b = some (if b = 1 then .safe else .hold) := by
  rcases h with rfl | rfl <;> rfl

theorem lineAction_ofByte_eq_none {b : Byte} : LineAction.ofByte b = none ↔ ¬(b = 0 ∨ b = 1) := by
  rw [LineAction.ofByte]
  split
  · simp_all
  · split <;> simp_all

theorem pairsWhole_iff (s : State) (m : LineMask) :
    s.pairsWhole m = true ↔ ∀ k, s.pairBound k = true → named m (primary k) = named m (partner k) := by
  simp only [State.pairsWhole, List.all_eq_true, List.mem_finRange, forall_const, Bool.or_eq_true,
    Bool.not_eq_true', beq_iff_eq]
  exact forall_congr' fun k => by cases s.pairBound k <;> simp

theorem anyHeld_iff (s : State) (p : StationNo) (m : LineMask) :
    (linesOf m).any (s.holds p) = true ↔ ∃ l, named m l = true ∧ s.holds p l = true := by
  simp [mem_linesOf]

/-- The lines of the mask cannot be granted: one of them is held, or a claim of the list names one (R39, R43). -/
def State.barred (s : State) (older : List WaitingClaim) (m : LineMask) : Prop :=
  (∃ l, named m l = true ∧ s.free l = false) ∨ ∃ v ∈ older, v.claim.lines &&& m ≠ 0

/-- The model's own test for a grant. -/
theorem not_barred_iff (s : State) (older : List WaitingClaim) (m : LineMask) :
    (s.allFree m && !namesAny older m) = true ↔ ¬s.barred older m := by
  simp [State.barred, State.allFree, namesAny, mem_linesOf]

theorem waitFull_iff (s : State) (p : StationNo) :
    s.waitFull p = true ↔
      8 ≤ s.waiting.length ∨ 2 ≤ (s.waiting.filter (fun w => w.claim.station == p)).length := by
  rw [State.waitFull, Bool.or_eq_true, decide_eq_true_iff, decide_eq_true_iff]
  rfl

section Claims

variable {p : StationNo} {s : State} {f : RequestFrame}

/-- The lines and the loss action of a CLAIM are in range (check 1 of R38). -/
abbrev RequestFrame.claimGood (f : RequestFrame) : Prop := f.half 0 ≠ 0 ∧ (f.at 2 = 0 ∨ f.at 2 = 1)

theorem claimRefusal_bad (h : ¬f.claimGood) : claimRefusal p f s = some .badValue := by
  refine if_pos ?_
  rw [lineAction_ofByte_eq_none]
  tauto

/-- The checks after the first, by the truth of each (R38). -/
theorem claimRefusal_good (h : f.claimGood) :
    claimRefusal p f s =
      if !s.pairsWhole (f.half 0) then some .paired
      else if (linesOf (f.half 0)).any (s.holds p) then some .overlap
      else none := by
  refine if_neg ?_
  rw [lineAction_ofByte_eq_none]
  tauto

/-- The taking of a request leaves what the checks of CLAIM read. -/
theorem claimRefusal_dequeue_leased :
    claimRefusal p f ((s.dequeue p).leased p) = claimRefusal p f s := rfl

/-- The claim that a CLAIM in range makes. -/
theorem newClaim_dequeue_leased (h : f.at 2 = 0 ∨ f.at 2 = 1) :
    ((s.dequeue p).leased p).newClaim p f =
      ⟨s.nextClaimId, p, f.half 0, if f.at 2 = 1 then .safe else .hold⟩ := by
  rw [State.newClaim, nextClaimId_dequeue_leased, lineAction_ofByte h]
  rfl

/-- The owner's part of a CLAIM that passes its first checks, by the state before the request was taken. -/
theorem claimOwner_passed (h : claimRefusal p f s = none) :
    claimOwner p f ((s.dequeue p).leased p) =
      if (s.allFree (f.half 0) && !namesAny s.waiting (f.half 0)) = true then
        { state := { (s.dequeue p).leased p with claimCounter := s.nextClaimId }.grant
            (((s.dequeue p).leased p).newClaim p f)
          outcome := .ok, payload := s.nextClaimId :: bytes16 (f.half 0) }
      else if f.half 3 = 0 then
        refuse ((s.dequeue p).leased p) .heldElsewhere (0 :: bytes16 (f.half 0))
      else if s.waitFull p = true then refuse ((s.dequeue p).leased p) .waitFull (0 :: bytes16 (f.half 0))
      else
        { state := { (s.dequeue p).leased p with
            claimCounter := s.nextClaimId
            waiting := s.waiting ++ [⟨((s.dequeue p).leased p).newClaim p f, f.half 3⟩] }
          outcome := .queued, payload := s.nextClaimId :: bytes16 (f.half 0) } := by
  rw [claimOwner, claimRefusal_dequeue_leased, h]
  dsimp only
  rw [nextClaimId_dequeue_leased]
  rfl

/-- The answer after a grant: what the grant changes, and the reply (R39). -/
theorem replied_grant (id : Byte) (c : Claim) (outcome : ReplyCode) (payload : List Byte) :
    ({ (s.dequeue p).leased p with claimCounter := id }.grant c).replied p f outcome payload =
      ({ s.leased p with
        held := s.held ++ [c], claimCounter := id
        lines := ({ (s.dequeue p).leased p with claimCounter := id }.grant c).lines } : State).answered p f
        outcome payload :=
  replied_eq_answered f outcome payload ((grant_eq _ c).trans rfl)

variable (h : s.admits p f .claim)
include h

/-- A CLAIM refused by its checks: the id 0 and the lines in the reply. -/
theorem exec_claim_refused {outcome : ReplyCode} (ho : claimOwner p f ((s.dequeue p).leased p) =
      refuse ((s.dequeue p).leased p) outcome (0 :: bytes16 (f.half 0))) :
    exec (.claim p) s = .next ((s.leased p).answered p f outcome (0 :: bytes16 (f.half 0))) :=
  congrArg _ (take_admitted_unchanged (owner := claimOwner) h (by decide) (rowOf_of_request h.2.1) ho)

theorem exec_claim_refused_first {outcome : ReplyCode} (hr : claimRefusal p f s = some outcome) :
    exec (.claim p) s = .next ((s.leased p).answered p f outcome (0 :: bytes16 (f.half 0))) :=
  exec_claim_refused h (by rw [claimOwner, claimRefusal_dequeue_leased, hr])

/-- The state that a CLAIM granted at once leaves (R39, R18). -/
theorem exec_claim_granted (hr : claimRefusal p f s = none) (ha : f.at 2 = 0 ∨ f.at 2 = 1)
    (hb : ¬s.barred s.waiting (f.half 0)) :
    ∃ t : State, exec (.claim p) s = .next t ∧
      t = ({ s.leased p with
        held := s.held ++
          [(⟨s.nextClaimId, p, f.half 0, if f.at 2 = 1 then .safe else .hold⟩ : Claim)]
        claimCounter := s.nextClaimId
        lines := t.lines }).answered p f .ok (s.nextClaimId :: bytes16 (f.half 0)) ∧
      ∀ l, t.line l = if named (f.half 0) l then
          { s.line l with
            holder := some s.nextClaimId
            driveOn := if (s.line l).granted then (s.line l).driveOn else true
            granted := true }
        else s.line l := by
  have ho := claimOwner_passed hr
  rw [if_pos ((not_barred_iff s s.waiting _).mpr hb), newClaim_dequeue_leased ha] at ho
  generalize s.nextClaimId = id at ho
  generalize hc : (⟨id, p, f.half 0, if f.at 2 = 1 then .safe else .hold⟩ : Claim) = c at ho
  refine ⟨_, congrArg Host.Outcome.next
    (take_admitted_eq (owner := claimOwner) h (by decide) (rowOf_of_request h.2.1) ho),
    replied_grant id c .ok _, fun l => ?_⟩
  have hl := grant_line { (s.dequeue p).leased p with claimCounter := id } c l
  rw [← hc] at hl ⊢
  exact hl

theorem exec_claim_queued (hr : claimRefusal p f s = none) (ha : f.at 2 = 0 ∨ f.at 2 = 1)
    (hb : s.barred s.waiting (f.half 0)) (hd : f.half 3 ≠ 0) (hw : ¬s.waitFull p = true) :
    exec (.claim p) s = .next (({ s.leased p with
      claimCounter := s.nextClaimId
      waiting := s.waiting ++
        [(⟨⟨s.nextClaimId, p, f.half 0, if f.at 2 = 1 then .safe else .hold⟩, f.half 3⟩ :
          WaitingClaim)] }).answered p f
      .queued (s.nextClaimId :: bytes16 (f.half 0))) := by
  have ho := claimOwner_passed hr
  rw [if_neg (mt (not_barred_iff s s.waiting _).mp (not_not_intro hb)), if_neg hd, if_neg hw,
    newClaim_dequeue_leased ha] at ho
  generalize s.nextClaimId = id at ho ⊢
  refine congrArg _ ((take_admitted_eq (owner := claimOwner) h (by decide) (rowOf_of_request h.2.1) ho).trans ?_)
  exact replied_eq_answered f .queued _ rfl

end Claims

/-- Settles O21: the checks in their order, then the grant at once, the refusals of a barred CLAIM, and the queue. -/
theorem claimGrantedQueuedOrRefused : Obligations.ClaimGrantedQueuedOrRefused := by
  refine ⟨?_, ?_⟩
  · intro p s f h m hm ha hwhole hfree hwait
    have hr : claimRefusal p f s = none := by
      rw [claimRefusal_good ⟨hm, ha⟩, if_neg (by simpa using (pairsWhole_iff s m).mpr hwhole), if_neg]
      rw [anyHeld_iff]
      rintro ⟨l, hl, hh⟩
      have := hfree l hl
      simp only [State.free, Option.isNone_iff_eq_none] at this
      simp [State.holds, State.holderStation, this] at hh
    refine exec_claim_granted h hr ha ?_
    rintro (⟨l, hl, hn⟩ | ⟨w, hw, hn⟩)
    · rw [hfree l hl] at hn; cases hn
    · exact hn (hwait w hw)
  · intro p s f h m refused good whole own barred full
    have hwhole : s.pairsWhole m = true ↔ whole := pairsWhole_iff s m
    have hown : (linesOf m).any (s.holds p) = true ↔ own := anyHeld_iff s p m
    have hfull : s.waitFull p = true ↔ full := waitFull_iff s p
    have hpass : good → whole → ¬own → claimRefusal p f s = none := fun hg hw ho => by
      rw [claimRefusal_good hg, if_neg (by simpa using hwhole.mpr hw), if_neg (mt hown.mp ho)]
    have hnot : barred → ¬(s.allFree m && !namesAny s.waiting m) = true := fun hb =>
      mt (not_barred_iff s s.waiting m).mp (not_not_intro hb)
    refine ⟨fun hg => ?_, fun hg hw => ?_, fun hg hw ho => ?_, fun hg hw ho hb hd => ?_,
      fun hg hw ho hb hd hf => ?_, fun hg hw ho hb hd hf => ?_⟩
    · exact exec_claim_refused_first h (claimRefusal_bad hg)
    · refine exec_claim_refused_first h ?_
      rw [claimRefusal_good hg, if_pos (by simpa using mt hwhole.mp hw)]
    · refine exec_claim_refused_first h ?_
      rw [claimRefusal_good hg, if_neg (by simpa using hwhole.mpr hw), if_pos (hown.mpr ho)]
    · refine exec_claim_refused h ?_
      rw [claimOwner_passed (hpass hg hw ho), if_neg (hnot hb), if_pos hd]
    · refine exec_claim_refused h ?_
      rw [claimOwner_passed (hpass hg hw ho), if_neg (hnot hb), if_neg hd, if_pos (hfull.mpr hf)]
    · exact exec_claim_queued h (hpass hg hw ho) hg.2 hb hd (mt hfull.mp hf)

end Sys2Proof.Machine
end

section
/-! The grant scan (R43, R44) as the run of its grants: each takes from the waiting list a claim whose lines are free
and that no older claim of the list bars. What the scan leaves is proved of every such run. -/

namespace Sys2Proof.Machine

/-! ### Notices told one after another -/

/-- One notice at a port, and then the others. -/
theorem portTold_appendNotice (s : State) (m n : StationNo) (x : Notice) (xs : List Notice) :
    (s.appendNotice m x).portTold n xs = s.portTold n (if m = n then x :: xs else xs) := by
  have hf := appendNotice_frame s m x
  have hb : (s.appendNotice m x).isBound n = s.isBound n := by simp only [State.isBound, hf.station]
  have hn : (s.appendNotice m x).sessionByte n = s.sessionByte n := by simp only [State.sessionByte, hf.station]
  unfold State.portTold
  rw [hb, hn, appendNotice_port]
  by_cases h : s.isBound n = true
  · rw [if_pos h, if_pos h]
    by_cases e : m = n
    · subst e; rw [if_pos ⟨rfl, h⟩, if_pos rfl]; rfl
    · rw [if_neg fun e' => e e'.1.symm, if_neg e]
  · rw [if_neg h, if_neg h, if_neg]
    rintro ⟨rfl, h'⟩
    exact h h'

/-- What is told at a port depends on the port and the session alone. -/
theorem portTold_congr {s t : State} (n : StationNo) (hp : t.port n = s.port n) (hs : t.station n = s.station n)
    (xs : List Notice) : t.portTold n xs = s.portTold n xs := by
  have hb : t.isBound n = s.isBound n := by simp only [State.isBound, hs]
  have hn : t.sessionByte n = s.sessionByte n := by simp only [State.sessionByte, hs]
  unfold State.portTold
  rw [hb, hn, hp]

@[simp] theorem portTold_nil (s : State) (n : StationNo) : s.portTold n [] = s.port n := by
  unfold State.portTold; split <;> rfl

/-! ### Runs of grants -/

/-- The state after one grant of the scan: the claim is HELD, its station is told, and it has left the list (R44). -/
def State.grantTold (s : State) (c : Claim) (left : List WaitingClaim) : State :=
  { (s.grant c).appendNotice c.station (.granted c.id c.lines) with waiting := left }

/-- The grants `granted`, one after another, turn `s` into `t`: each is of a waiting claim that is not barred. -/
inductive GrantRun : State → List Claim → State → Prop
  | nil (s : State) : GrantRun s [] s
  | cons {s t : State} {older younger : List WaitingClaim} {w : WaitingClaim} {granted : List Claim} :
      s.waiting = older ++ w :: younger → ¬s.barred older w.claim.lines →
      GrantRun (s.grantTold w.claim (older ++ younger)) granted t → GrantRun s (w.claim :: granted) t

theorem GrantRun.trans {s t u : State} {a b : List Claim} (h : GrantRun s a t) (k : GrantRun t b u) :
    GrantRun s (a ++ b) u := by
  induction h with
  | nil => exact k
  | cons hw hb _ ih => exact .cons hw hb (ih k)

/-- A grant touches line records, the claim lists and ports alone. -/
theorem grantTold_frame (s : State) (c : Claim) (left : List WaitingClaim) : OnlyClaims s (s.grantTold c left) :=
  ((grant_frame s c).trans (appendNotice_frame _ _ _).toClaims).trans rfl

theorem grantTold_held (s : State) (c : Claim) (left : List WaitingClaim) :
    (s.grantTold c left).held = s.held ++ [c] :=
  (appendNotice_frame (s.grant c) c.station (.granted c.id c.lines)).held.trans (by rw [grant_eq])

theorem grantTold_pairs (s : State) (c : Claim) (left : List WaitingClaim) :
    (s.grantTold c left).pairs = s.pairs :=
  (appendNotice_frame (s.grant c) c.station (.granted c.id c.lines)).pairs.trans (by rw [grant_eq])

theorem grantTold_line (s : State) (c : Claim) (left : List WaitingClaim) (l : LineNo) :
    (s.grantTold c left).line l =
      if named c.lines l = true then
        { s.line l with
          holder := some c.id
          driveOn := if (s.line l).granted then (s.line l).driveOn else true
          granted := true }
      else s.line l :=
  ((appendNotice_frame (s.grant c) c.station (.granted c.id c.lines)).line l).trans (grant_line s c l)

/-- The lines of a granted claim are free no more; every other line is as free as it was. -/
theorem grantTold_free (s : State) (c : Claim) (left : List WaitingClaim) (l : LineNo) :
    (s.grantTold c left).free l = (s.free l && !named c.lines l) := by
  unfold State.free
  rw [grantTold_line]
  split <;> simp_all

theorem grantTold_portTold (s : State) (c : Claim) (left : List WaitingClaim) (n : StationNo) (xs : List Notice) :
    (s.grantTold c left).portTold n xs =
      s.portTold n (if c.station = n then .granted c.id c.lines :: xs else xs) := by
  have hp : (s.grant c).port n = s.port n := by rw [grant_eq]; rfl
  have hs : (s.grant c).station n = s.station n := (grant_frame s c).station n
  exact (portTold_congr (s := (s.grant c).appendNotice c.station (.granted c.id c.lines)) n rfl rfl xs).trans
    ((portTold_appendNotice _ _ n _ xs).trans (portTold_congr n hp hs _))

/-! ### What a run leaves -/

/-- Where a list without repetition splits at `x` and at `w`, the splits are one, or `w` splits what is left without
`x`. -/
theorem split_of_split_without {α : Type} [DecidableEq α] {x w : α} {before after older younger : List α}
    (hnd : (before ++ x :: after).Nodup) (h : before ++ x :: after = older ++ w :: younger) :
    (w = x ∧ before = older) ∨ ∃ younger', before ++ after = older.erase x ++ w :: younger' := by
  have hx : x ∉ before ++ after := (List.nodup_cons.mp (List.nodup_middle.mp hnd)).1
  by_cases e : w = x
  · subst e
    rw [List.mem_append, not_or] at hx
    exact .inl ⟨rfl, ((List.append_cons_inj_of_notMem hx.1 hx.2).mp h).1⟩
  · right
    have herase : (before ++ x :: after).erase x = (older ++ w :: younger).erase x := by rw [h]
    rw [List.erase_append_right _ fun hm => hx (List.mem_append_left _ hm), List.erase_cons_head,
      List.erase_append] at herase
    split at herase
    · exact ⟨younger, herase⟩
    · rename_i hm
      rw [List.erase_cons_tail (by simpa using e), ← List.erase_of_not_mem hm] at herase
      exact ⟨_, herase⟩

section Run

variable {s t : State} {granted : List Claim} (h : GrantRun s granted t)
include h

theorem GrantRun.frame : t = { s with
    held := s.held ++ granted, waiting := t.waiting, lines := t.lines, ports := t.ports } := by
  induction h with
  | nil s => rw [List.append_nil]
  | @cons s t older younger w granted hw hb _ ih =>
    have hf := grantTold_frame s w.claim (older ++ younger)
    have hp := grantTold_pairs s w.claim (older ++ younger)
    have hh := grantTold_held s w.claim (older ++ younger)
    rw [OnlyClaims] at hf
    rw [ih, hh, List.append_assoc, List.singleton_append]
    generalize s.grantTold w.claim (older ++ younger) = u at hf hp
    rw [hf, hp]

theorem GrantRun.waiting_sublist : t.waiting.Sublist s.waiting := by
  induction h with
  | nil => exact List.Sublist.refl _
  | cons hw _ _ ih =>
    rw [hw]
    exact ih.trans ((List.sublist_cons_self _ _).append_left _)

/-- Each claim of the list is granted or stays. -/
theorem GrantRun.perm :
    (granted ++ t.waiting.map (fun w => w.claim)).Perm (s.waiting.map (fun w => w.claim)) := by
  induction h with
  | nil => exact List.Perm.refl _
  | cons hw _ _ ih =>
    rw [hw, List.map_append, List.map_cons]
    refine (ih.cons _).trans ?_
    show List.Perm (_ :: (List.map _ (_ ++ _))) _
    rw [List.map_append]
    exact List.perm_middle.symm

theorem GrantRun.length : granted.length + t.waiting.length = s.waiting.length := by
  simpa using h.perm.length_eq

/-- The lines of a granted claim were free when the run began. -/
theorem GrantRun.free : ∀ c ∈ granted, ∀ l, named c.lines l = true → s.free l = true := by
  induction h with
  | nil => exact nofun
  | @cons s t older younger w granted _ hb _ ih =>
    intro c hc l hl
    rcases List.mem_cons.mp hc with rfl | hc
    · by_contra hf
      exact hb (.inl ⟨l, hl, by simpa using hf⟩)
    · have := ih c hc l hl
      rw [grantTold_free, Bool.and_eq_true] at this
      exact this.1

/-- A line that no granted claim names stays as it was. -/
theorem GrantRun.line_of_not_named {l : LineNo} (hl : ∀ c ∈ granted, named c.lines l = false) :
    t.line l = s.line l := by
  induction h with
  | nil => rfl
  | cons _ _ _ ih =>
    rw [ih fun c hc => hl c (List.mem_cons_of_mem _ hc), grantTold_line, hl _ List.mem_cons_self]
    rfl

/-- The lines of a granted claim take its id, and drive at their first grant (R39, R18). -/
theorem GrantRun.line_of_named : ∀ c ∈ granted, ∀ l, named c.lines l = true →
    t.line l = { s.line l with
      holder := some c.id
      driveOn := if (s.line l).granted then (s.line l).driveOn else true
      granted := true } := by
  induction h with
  | nil => exact nofun
  | @cons s t older younger w granted _ hb hrun ih =>
    intro c hc l hl
    rcases List.mem_cons.mp hc with rfl | hc
    · refine (hrun.line_of_not_named fun d hd => ?_).trans ((grantTold_line s _ _ l).trans (if_pos hl))
      by_contra hn
      have := hrun.free d hd l (by simpa using hn)
      rw [grantTold_free, hl] at this
      simp at this
    · have hf := hrun.free c hc l hl
      rw [grantTold_free, Bool.and_eq_true, Bool.not_eq_true'] at hf
      rw [ih c hc l hl, grantTold_line, hf.2]
      rfl

/-- Each station is told of its grants, in their order (R44). -/
theorem GrantRun.port (n : StationNo) : t.port n = s.portTold n
    ((granted.filter (fun c => c.station == n)).map (fun c => .granted c.id c.lines)) := by
  induction h with
  | nil => exact (portTold_nil _ n).symm
  | @cons _ _ _ _ w _ _ _ _ ih =>
    rw [ih, grantTold_portTold, List.filter_cons]
    by_cases e : w.claim.station = n
    · rw [if_pos e, if_pos (by simpa using e)]; rfl
    · rw [if_neg e, if_neg (by simpa using e)]

/-- No claim overtakes an older one (R43): an older claim that is left on the list names no line of a granted one. -/
theorem GrantRun.not_overtaken (hid : (s.waiting.map (fun w => w.claim.id)).Nodup) :
    ∀ older w younger, s.waiting = older ++ w :: younger → w.claim ∈ granted →
      ∀ v ∈ older, v ∈ t.waiting → v.claim.lines &&& w.claim.lines = 0 := by
  induction h with
  | nil => exact nofun
  | @cons s t before after x granted hw hb hrun ih =>
    intro older w younger hs hm v hv ht
    have hnd : (before ++ x :: after).Nodup := by rw [← hw]; exact hid.of_map
    rw [hw] at hs hid
    rcases split_of_split_without hnd hs with ⟨rfl, rfl⟩ | ⟨younger', hs'⟩
    · by_contra hn
      exact hb (.inr ⟨v, hv, hn⟩)
    · have hx : x ∉ before ++ after := (List.nodup_cons.mp (List.nodup_middle.mp hnd)).1
      have hne : ∀ y ∈ before ++ after, y ≠ x := fun y hy e => hx (e ▸ hy)
      have hw' : w ∈ before ++ after := by rw [hs']; simp
      have hm' : w.claim ∈ granted := (List.mem_cons.mp hm).resolve_left fun e =>
        hne w hw' (List.inj_on_of_nodup_map hid (by rw [hs]; simp) (by simp) (congrArg Claim.id e))
      have hv' : v ∈ before ++ after := hrun.waiting_sublist.subset ht
      refine ih ?_ _ w younger' hs' hm' v ((List.mem_erase_of_ne (hne v hv')).mpr hv) ht
      exact hid.sublist (((List.sublist_cons_self x after).append_left before).map _)

end Run

/-! ### The scan is a run -/

theorem lines_ext {s t : State} (h : ∀ l, s.line l = t.line l) : s.lines = t.lines :=
  Vector.ext fun i hi => h ⟨i, hi⟩

/-- A grant does not read the waiting list. -/
theorem grant_withWaiting (s : State) (c : Claim) (l : List WaitingClaim) :
    ({ s with waiting := l } : State).grant c = { s.grant c with waiting := l } := by
  have hl : (({ s with waiting := l } : State).grant c).lines = (s.grant c).lines :=
    lines_ext fun x => by rw [grant_line, grant_line]; rfl
  rw [grant_eq, hl, grant_eq s c]

theorem appendNotice_withWaiting (s : State) (n : StationNo) (x : Notice) (l : List WaitingClaim) :
    ({ s with waiting := l } : State).appendNotice n x = { s.appendNotice n x with waiting := l } := by
  unfold State.appendNotice
  show (if s.isBound n = true then _ else _) = _
  split <;> rfl

theorem grantTold_withWaiting (s : State) (c : Claim) (l left : List WaitingClaim) :
    ({ s with waiting := l } : State).grantTold c left = s.grantTold c left := by
  rw [State.grantTold, grant_withWaiting, appendNotice_withWaiting]
  rfl

/-- A walk of the scan is a run of grants; it says whether it granted. -/
theorem grantWalk_run : ∀ (todo kept : List WaitingClaim) (s : State),
    ∃ granted, GrantRun { s with waiting := kept ++ todo } granted
        { (s.grantWalk kept todo).1 with waiting := (s.grantWalk kept todo).2.1 } ∧
      ((s.grantWalk kept todo).2.2 = true → granted ≠ [])
  | [], kept, s => ⟨[], by rw [List.append_nil]; exact .nil _, nofun⟩
  | w :: rest, kept, s => by
    unfold State.grantWalk
    split
    · rename_i hf
      obtain ⟨granted, hrun, -⟩ := grantWalk_run rest kept
        ((s.grant w.claim).appendNotice w.claim.station (.granted w.claim.id w.claim.lines))
      refine ⟨w.claim :: granted, .cons rfl ((not_barred_iff s kept _).mp hf) ?_, nofun⟩
      rw [grantTold_withWaiting]
      exact hrun
    · have := grantWalk_run rest (kept ++ [w]) s
      rwa [List.append_assoc] at this

/-- What the statements call blocked is a claim whose lines are barred. -/
theorem blocked_iff_barred (s : State) (older : List WaitingClaim) (w : WaitingClaim) :
    s.blocked older w ↔ s.barred older w.claim.lines := Iff.rfl

/-- Every claim of the list is barred by a held line or by an older claim. -/
def State.stuck (s : State) (older todo : List WaitingClaim) : Prop :=
  ∀ before w after, todo = before ++ w :: after → s.blocked (older ++ before) w

/-- A walk that grants nothing leaves the state and the list, with every claim barred. -/
theorem grantWalk_idle : ∀ (todo kept : List WaitingClaim) (s : State), (s.grantWalk kept todo).2.2 = false →
    s.grantWalk kept todo = (s, kept ++ todo, false) ∧ s.stuck kept todo
  | [], kept, s, _ => ⟨by rw [List.append_nil]; rfl, fun before _ _ h => by simp at h⟩
  | w :: rest, kept, s, h => by
    unfold State.grantWalk at h ⊢
    split at h
    · cases h
    · rename_i hf
      rw [if_neg hf]
      obtain ⟨he, hs⟩ := grantWalk_idle rest (kept ++ [w]) s h
      refine ⟨by rw [he, List.append_assoc]; rfl, fun before x after hx => ?_⟩
      cases before with
      | nil =>
        obtain ⟨rfl, rfl⟩ := List.cons.inj hx
        rw [List.append_nil, blocked_iff_barred]
        exact not_not.mp (mt (not_barred_iff s kept _).mpr hf)
      | cons y before =>
        obtain ⟨rfl, hr⟩ := List.cons.inj hx
        have := hs before x after hr
        rwa [List.append_assoc] at this

/-- The scan is a run of grants, and given enough walks it stops where every claim is barred. -/
theorem grantScanFrom_run : ∀ (fuel : Nat) (s : State),
    ∃ granted, GrantRun s granted (s.grantScanFrom fuel) ∧
      (s.waiting.length < fuel → (s.grantScanFrom fuel).stuck [] (s.grantScanFrom fuel).waiting)
  | 0, s => ⟨[], .nil s, nofun⟩
  | fuel + 1, s => by
    obtain ⟨granted, hrun, hsome⟩ := grantWalk_run s.waiting [] s
    unfold State.grantScanFrom
    dsimp only
    split
    · rename_i hg
      obtain ⟨more, hmore, hstuck⟩ := grantScanFrom_run fuel
        { (s.grantWalk [] s.waiting).1 with waiting := (s.grantWalk [] s.waiting).2.1 }
      refine ⟨granted ++ more, GrantRun.trans hrun hmore, fun hlt => hstuck ?_⟩
      have hlen : granted.length + (s.grantWalk [] s.waiting).2.1.length = s.waiting.length := hrun.length
      have := List.length_pos_of_ne_nil (hsome hg)
      show (s.grantWalk [] s.waiting).2.1.length < fuel
      omega
    · rename_i hg
      obtain ⟨he, hs⟩ := grantWalk_idle s.waiting [] s (by simpa using hg)
      rw [he]
      exact ⟨[], .nil s, fun _ => hs⟩

/-- Settles O23: the scan is a run of grants that stops where every claim is barred. -/
theorem grantScanGrantsAllItCan : Obligations.GrantScanGrantsAllItCan := by
  intro s
  obtain ⟨granted, hrun, hstuck⟩ := grantScanFrom_run (s.waiting.length + 1) s
  exact ⟨granted, hrun.frame, hrun.waiting_sublist, hrun.perm, hstuck (Nat.lt_succ_self _),
    fun c hc l hl => ⟨hrun.free c hc l hl, hrun.line_of_named c hc l hl⟩, fun l hl => hrun.line_of_not_named hl,
    hrun.port, hrun.not_overtaken⟩

end Sys2Proof.Machine
end

section
/-! RELEASE of a HELD and of a WAITING claim (R47 to R49), and the expiry of waiting claims (R45). -/

namespace Sys2Proof.Machine

/-! ### The claim that a RELEASE names (R47) -/

theorem heldBy_eq_some {s : State} {p : StationNo} {id : Byte} {c : Claim} (hc : c ∈ s.held) (hid : c.id = id)
    (hp : c.station = p) (hone : ∀ x ∈ s.held, x.id = id → x = c) : s.heldBy p id = some c := by
  unfold State.heldBy
  cases hf : s.held.find? (fun x => x.id == id && x.station == p) with
  | none => exact absurd (List.find?_eq_none.mp hf c hc) (by simp [hid, hp])
  | some d =>
    have hd := List.find?_some hf
    rw [Bool.and_eq_true, beq_iff_eq] at hd
    rw [hone d (List.mem_of_find?_eq_some hf) hd.1]

theorem heldBy_eq_none {s : State} {p : StationNo} {id : Byte}
    (h : ¬∃ c ∈ s.held, c.id = id ∧ c.station = p) : s.heldBy p id = none :=
  List.find?_eq_none.mpr fun c hc e => h ⟨c, hc, by simpa using e⟩

theorem waitsAs_iff (s : State) (p : StationNo) (id : Byte) :
    s.waitsAs p id = true ↔ ∃ w ∈ s.waiting, w.claim.id = id ∧ w.claim.station = p := by
  simp [State.waitsAs]

/-! ### RELEASE -/

/-- Giving a claim up changes the line unit's records and the HELD claims alone. -/
theorem giveUp_eq (s : State) (c : Claim) (a : LineAction) :
    s.giveUp c a = { s with
      held := s.held.filter (fun x => x.id != c.id)
      lines := (s.giveUp c a).lines, pairs := (s.giveUp c a).pairs } := by
  have hf := giveUp_lines_frame s c a
  rw [OnlyLines] at hf
  rw [← giveUp_held s c a]
  unfold State.giveUp
  dsimp only
  generalize (linesOf c.lines).foldl State.freeLine (s.applyAction c.lines a) = u at hf
  rw [hf]

/-- The release of a HELD claim, with its orders removed at once (R49, R57). -/
theorem releaseClaim_eq (s : State) (p : StationNo) (c : Claim) (a : LineAction) :
    s.releaseClaim p c a = ((s.without (onMask p c.lines)).giveUp c a).grantScan := by
  rw [← removeOrders_slotsWith]
  rfl

/-- The owner's part of a RELEASE that names no HELD claim of the requester (R47, R48). -/
theorem releaseOwner_not_held {p : StationNo} {s : State} {f : RequestFrame} (ha : f.at 1 = 0 ∨ f.at 1 = 1)
    (hheld : ¬∃ c ∈ s.held, c.id = f.at 0 ∧ c.station = p) :
    releaseOwner p f ((s.dequeue p).leased p) =
      if s.waitsAs p (f.at 0) = true then
        { state := ((s.dequeue p).leased p).withdraw p (f.at 0), outcome := .ok, payload := [0] }
      else refuse ((s.dequeue p).leased p) .notHolder := by
  have hc : ((s.dequeue p).leased p).heldBy p (f.at 0) = none := heldBy_eq_none hheld
  rw [releaseOwner, lineAction_ofByte ha]
  dsimp only
  rw [hc]
  rfl

section Releases

variable {p : StationNo} {s : State} {f : RequestFrame} (h : s.admits p f .release)
include h

/-- A RELEASE refused by its checks. -/
theorem exec_release_refused {outcome : ReplyCode} (ho : releaseOwner p f ((s.dequeue p).leased p) =
      refuse ((s.dequeue p).leased p) outcome) :
    exec (.release p) s = .next ((s.leased p).answered p f outcome []) :=
  congrArg _ (take_admitted_refused (owner := releaseOwner) h (by decide) (rowOf_of_request h.2.1) ho)

/-- An accepted RELEASE, by what its owner leaves. -/
theorem exec_release_ok {u : State} {payload : List Byte} (ho : releaseOwner p f ((s.dequeue p).leased p) =
      { state := u, outcome := .ok, payload := payload }) :
    exec (.release p) s = .next (u.replied p f .ok payload) :=
  congrArg _ (take_admitted_eq (owner := releaseOwner) h (by decide) (rowOf_of_request h.2.1) ho)

theorem exec_release_badValue (h0 : f.at 1 ≠ 0) (h1 : f.at 1 ≠ 1) :
    exec (.release p) s = .next ((s.leased p).answered p f .badValue []) := by
  refine exec_release_refused h ?_
  rw [releaseOwner, lineAction_ofByte_eq_none.mpr (by tauto)]

variable (ha : f.at 1 = 0 ∨ f.at 1 = 1)
include ha

/-- A HELD claim of the requester is released (R49). -/
theorem exec_release_held {c : Claim} (hc : s.heldBy p (f.at 0) = some c) :
    exec (.release p) s = .next (((((s.dequeue p).leased p).without (onMask p c.lines)).giveUp c
      (if f.at 1 = 1 then .safe else .hold)).grantScan.replied p f .ok
        [BitVec.ofNat 8 (s.countOrders (onMask p c.lines))]) := by
  have hc' : ((s.dequeue p).leased p).heldBy p (f.at 0) = some c := hc
  refine exec_release_ok h ?_
  rw [releaseOwner, lineAction_ofByte ha]
  dsimp only
  rw [hc', ← releaseClaim_eq]
  rfl

variable (hheld : ¬∃ c ∈ s.held, c.id = f.at 0 ∧ c.station = p)
include hheld

theorem exec_release_notHolder (hw : ¬∃ w ∈ s.waiting, w.claim.id = f.at 0 ∧ w.claim.station = p) :
    exec (.release p) s = .next ((s.leased p).answered p f .notHolder []) := by
  refine exec_release_refused h ?_
  rw [releaseOwner_not_held ha hheld, if_neg (mt (waitsAs_iff s p _).mp hw)]

/-- A WAITING claim of the requester is withdrawn (R48). -/
theorem exec_release_waiting (hw : ∃ w ∈ s.waiting, w.claim.id = f.at 0 ∧ w.claim.station = p) :
    exec (.release p) s = .next
      (({ (s.dequeue p).leased p with waiting := s.waiting.filter (fun w =>
          !(w.claim.id == f.at 0 && w.claim.station == p)) }).grantScan.replied p f .ok [0]) := by
  have ho := releaseOwner_not_held ha hheld
  rw [if_pos ((waitsAs_iff s p _).mpr hw)] at ho
  exact exec_release_ok h ho

end Releases

/-- Settles O24: the orders go, the claim is given up with its action, and the grant scan runs. -/
theorem releaseGivesUpHeldClaim : Obligations.ReleaseGivesUpHeldClaim := by
  intro p s f c h ha hc hid hp hone safely q
  have hby : s.heldBy p (f.at 0) = some c := heldBy_eq_some hc hid hp fun x hx e => hone x hx (e.trans hid.symm)
  have hsafe : ((if f.at 1 = 1 then .safe else .hold : LineAction) == .safe) = safely := by
    show _ = (f.at 1 == 1)
    by_cases e : f.at 1 = 1 <;> simp [e]
  refine ⟨_, exec_release_held h ha hby, giveUp_eq _ c _, fun l => ?_, fun k => ?_⟩
  · rw [giveUp_line, hsafe]; rfl
  · rw [giveUp_pair, hsafe]; rfl

/-! ### The expiry of waiting claims (R45) -/

/-- Notices told one after another, each at its own station's port. -/
theorem foldl_appendNotice_port {α : Type} (who : α → StationNo) (what : α → Notice) (l : List α) (s : State)
    (n : StationNo) :
    (l.foldl (fun u x => u.appendNotice (who x) (what x)) s).port n =
      s.portTold n ((l.filter (fun x => who x == n)).map what) := by
  induction l generalizing s with
  | nil => exact (portTold_nil s n).symm
  | cons x l ih =>
    rw [List.foldl_cons, ih, portTold_appendNotice, List.filter_cons]
    by_cases e : who x = n
    · rw [if_pos e, if_pos (by simpa using e)]; rfl
    · rw [if_neg e, if_neg (by simpa using e)]

theorem expired_eq_nil_iff (s : State) : s.expired = [] ↔ ∀ w ∈ s.waiting, w.deadline ≠ 0 := by
  simp [State.expired]

/-- The waiting claims at 0 have left the list, and each has been announced. -/
def State.announced (s : State) : State :=
  s.expired.foldl State.announceExpiry { s with waiting := s.waiting.filter (fun w => w.deadline != 0) }

theorem announced_frame (s : State) :
    OnlyPorts { s with waiting := s.waiting.filter (fun w => w.deadline != 0) } s.announced :=
  foldl_frame OnlyPorts.refl OnlyPorts.trans (fun _ _ => appendNotice_frame _ _ _) _ _

theorem announced_port (s : State) (n : StationNo) : s.announced.port n = s.portTold n
    ((s.expired.filter (fun w => w.claim.station == n)).map
      (fun w => .waitExpired w.claim.id w.claim.lines)) :=
  (foldl_appendNotice_port (fun w : WaitingClaim => w.claim.station)
    (fun w => .waitExpired w.claim.id w.claim.lines) s.expired _ n).trans (portTold_congr n rfl rfl _)

/-- Settles O25: RELEASE by its checks in their order, and the expiry with its announcements and one scan. -/
theorem waitingClaimsLeave : Obligations.WaitingClaimsLeave := by
  refine ⟨fun p s f h => ⟨exec_release_badValue h, exec_release_notHolder h, exec_release_waiting h⟩,
    fun s hs => ?_⟩
  have hexec : exec .waitExpiry s = .next s.expireWaits := acting_atWork hs _
  rw [hexec]
  refine ⟨fun hn => ?_, fun ⟨w, hw, hd⟩ => ⟨s.announced, ?_, announced_frame s, announced_port s⟩⟩
  · rw [State.expireWaits, if_pos ((expired_eq_nil_iff s).mpr hn)]
  · rw [State.expireWaits, if_neg fun e => (expired_eq_nil_iff s).mp e w hw hd]
    rfl

end Sys2Proof.Machine
end

section
/-! The plan of orders: what the schedule list and the armed lists hold, split from the law of the schedule into the
orders that are SCHEDULED (`ListLaw`, with a least distance, so that a settled list can say that none is due) and those
that are ARMED (`ArmedLaw`, with the orders of one input that are still to be triggered). Removing an order and placing
one keep both, and so does every edge. -/

namespace Sys2Proof.Machine

/-! ### The two halves of the law -/

/-- The orders of the schedule list: every SCHEDULED order once, by ascending distance, each `m` ticks away at least and
the horizon at most, and the spans of every order in range. -/
structure ListLaw (m : Nat) (s : State) : Prop where
  nodup : s.schedule.Nodup
  mem : ∀ i, i ∈ s.schedule ↔ ∃ o e ph, s.order i = some o ∧ o.state = .scheduled e ph
  sorted : s.schedule.Pairwise (fun i j => ∀ a b, s.order i = some a → s.order j = some b →
    s.distance a.nextEdge ≤ s.distance b.nextEdge)
  near : ∀ i o e ph, s.order i = some o → o.state = .scheduled e ph →
    m ≤ s.distance e ∧ s.distance e ≤ s.horizon
  spans : ∀ i o, s.order i = some o → o.inRange s.horizon

/-- The armed list of input `d`, with the slots `left` of input `c` whose triggers are still to be made. -/
def State.armedWith (s : State) (c : InputNo) (left : List SlotNo) (d : InputNo) : List SlotNo :=
  s.armedOn d ++ if d = c then left else []

/-- The orders of the armed lists, those of input `c` still to be triggered among them: each ARMED order once, with the
input of its trigger. -/
structure ArmedLaw (c : InputNo) (left : List SlotNo) (s : State) : Prop where
  once : ∀ d, (s.armedWith c left d).Nodup
  holds : ∀ d i, i ∈ s.armedWith c left d ↔
    ∃ o tr, s.order i = some o ∧ o.state = .armed ∧ o.trigger = some tr ∧ tr.input = d
  triggered : ∀ i o, s.order i = some o → o.state = .armed → o.trigger ≠ none

/-- The whole plan. -/
structure Plan (m : Nat) (c : InputNo) (left : List SlotNo) (s : State) : Prop extends
  ListLaw m s, ArmedLaw c left s

@[simp] theorem armedWith_nil (s : State) (c d : InputNo) : s.armedWith c [] d = s.armedOn d := by
  simp [State.armedWith]

theorem scheduleLaw_iff (s : State) (c : InputNo) : s.scheduleLaw ↔ Plan 0 c [] s := by
  constructor
  · rintro ⟨h1, h2, h3, h4, h5, h6, h7, h8⟩
    refine { nodup := h1, mem := h2, sorted := h3, near := fun i o e ph ho hs => ⟨Nat.zero_le _, ?_⟩
             spans := h8, once := by simpa using h5, holds := by simpa using h6, triggered := h7 }
    rcases h4 i o ho with h | h
    · simpa [Order.nextEdge, hs] using h
    · rw [hs] at h; cases h
  · intro h
    refine ⟨h.nodup, h.mem, h.sorted, fun i o ho => ?_, by simpa using h.once, by simpa using h.holds, h.triggered,
      h.spans⟩
    cases hs : o.state with
    | armed => exact .inr rfl
    | scheduled e ph =>
      have := (h.near i o e ph ho hs).2
      exact .inl (by simpa [Order.nextEdge, hs] using this)

/-! ### What the plan reads -/

/-- The plan reads the orders, the two lists, T and the horizon. -/
structure SamePlan (s t : State) : Prop where
  order : ∀ i, t.order i = s.order i
  schedule : t.schedule = s.schedule
  armed : ∀ c, t.armedOn c = s.armedOn c
  time : t.tb.t = s.tb.t
  exponent : t.tb.h = s.tb.h

theorem SamePlan.of_eq {s t : State} (hsl : t.slots = s.slots) (hsc : t.schedule = s.schedule)
    (ha : t.armed = s.armed) (ht : t.tb.t = s.tb.t) (hh : t.tb.h = s.tb.h) : SamePlan s t :=
  ⟨fun i => by simp only [State.order, State.slot, hsl], hsc, fun c => by simp only [State.armedOn, ha], ht, hh⟩

theorem SamePlan.refl (s : State) : SamePlan s s := .of_eq rfl rfl rfl rfl rfl

theorem SamePlan.trans {s t u : State} (a : SamePlan s t) (b : SamePlan t u) : SamePlan s u :=
  ⟨fun i => (b.order i).trans (a.order i), b.schedule.trans a.schedule, fun c => (b.armed c).trans (a.armed c),
    b.time.trans a.time, b.exponent.trans a.exponent⟩

section Same

variable {s t : State} (k : SamePlan s t)
include k

theorem SamePlan.distance (e : Time) : t.distance e = s.distance e := by
  simp only [State.distance, k.time]

theorem SamePlan.horizon : t.horizon = s.horizon := by simp only [State.horizon, k.exponent]

theorem SamePlan.listLaw {m : Nat} (h : ListLaw m s) : ListLaw m t where
  nodup := by rw [k.schedule]; exact h.nodup
  mem := by simpa only [k.schedule, k.order] using h.mem
  sorted := by simpa only [k.schedule, k.order, k.distance] using h.sorted
  near := by simpa only [k.order, k.distance, k.horizon] using h.near
  spans := by simpa only [k.order, k.horizon] using h.spans

theorem SamePlan.armedLaw {c : InputNo} {left : List SlotNo} (h : ArmedLaw c left s) : ArmedLaw c left t where
  once := by simpa only [State.armedWith, k.armed] using h.once
  holds := by simpa only [State.armedWith, k.armed, k.order] using h.holds
  triggered := by simpa only [k.order] using h.triggered

theorem SamePlan.plan {m : Nat} {c : InputNo} {left : List SlotNo} (h : Plan m c left s) : Plan m c left t :=
  ⟨k.listLaw h.toListLaw, k.armedLaw h.toArmedLaw⟩

end Same

theorem OnlyPorts.samePlan {s t : State} (h : OnlyPorts s t) : SamePlan s t :=
  .of_eq h.slots h.schedule h.armed (by rw [h.tb]) (by rw [h.tb])

theorem OnlyLines.samePlan {s t : State} (h : OnlyLines s t) : SamePlan s t :=
  .of_eq h.slots h.schedule h.armed (by rw [h.tb]) (by rw [h.tb])

/-! ### A removal -/

theorem removeOrder_order (s : State) (i j : SlotNo) :
    (s.removeOrder i).order j = if j = i then none else s.order j := by
  have h : (s.removeOrder i).order j = (s.setSlot i ⟨(s.slot i).generation + 1, none⟩).order j := rfl
  rw [h, setSlot_order]

theorem removeOrder_armedOn (s : State) (i : SlotNo) (c : InputNo) :
    (s.removeOrder i).armedOn c = (s.armedOn c).filter (fun j => j != i) := by
  simp [State.removeOrder, State.armedOn]

theorem removeOrder_schedule (s : State) (i : SlotNo) :
    (s.removeOrder i).schedule = s.schedule.filter (fun j => j != i) := rfl

/-- The removal reads nothing but the plan, so that a plan which is the same stays the same. -/
theorem SamePlan.removeOrder {s t : State} (k : SamePlan s t) (i : SlotNo) :
    SamePlan (s.removeOrder i) (t.removeOrder i) where
  order j := by simp only [removeOrder_order, k.order]
  schedule := by simp only [removeOrder_schedule, k.schedule]
  armed c := by simp only [removeOrder_armedOn, k.armed]
  time := k.time
  exponent := k.exponent

/-- What stands after a removal stood before it. -/
theorem order_of_removeOrder {s : State} {i j : SlotNo} {o : Order} (h : (s.removeOrder i).order j = some o) :
    j ≠ i ∧ s.order j = some o := by
  rw [removeOrder_order] at h
  split at h
  · cases h
  · exact ⟨‹_›, h⟩

theorem ListLaw.removeOrder {m : Nat} {s : State} (h : ListLaw m s) (i : SlotNo) : ListLaw m (s.removeOrder i) where
  nodup := h.nodup.filter _
  mem j := by
    rw [removeOrder_schedule, List.mem_filter, h.mem, removeOrder_order]
    by_cases e : j = i <;> simp [e]
  sorted := by
    refine (h.sorted.filter _).imp fun {x y} hxy a b ha hb => ?_
    exact hxy a b (order_of_removeOrder ha).2 (order_of_removeOrder hb).2
  near j o e ph ho hs := h.near j o e ph (order_of_removeOrder ho).2 hs
  spans j o ho := h.spans j o (order_of_removeOrder ho).2

theorem removeOrder_armedWith (s : State) (i : SlotNo) (c d : InputNo) (left : List SlotNo) :
    (s.removeOrder i).armedWith c (left.filter (fun j => j != i)) d =
      (s.armedWith c left d).filter (fun j => j != i) := by
  rw [State.armedWith, State.armedWith, removeOrder_armedOn, List.filter_append]
  split <;> rfl

theorem ArmedLaw.removeOrder {c : InputNo} {left : List SlotNo} {s : State} (h : ArmedLaw c left s) (i : SlotNo) :
    ArmedLaw c (left.filter (fun j => j != i)) (s.removeOrder i) where
  once d := by rw [removeOrder_armedWith]; exact (h.once d).filter _
  holds d j := by
    rw [removeOrder_armedWith, List.mem_filter, h.holds, removeOrder_order]
    by_cases e : j = i <;> simp [e]
  triggered j o ho := h.triggered j o (order_of_removeOrder ho).2

theorem Plan.removeOrder {m : Nat} {c : InputNo} {left : List SlotNo} {s : State} (h : Plan m c left s) (i : SlotNo) :
    Plan m c (left.filter (fun j => j != i)) (s.removeOrder i) :=
  ⟨h.toListLaw.removeOrder i, h.toArmedLaw.removeOrder i⟩

/-- Removals keep the plan where no trigger is outstanding. -/
theorem Plan.removeOrders {m : Nat} {c : InputNo} : ∀ (l : List SlotNo) {s : State}, Plan m c [] s →
    Plan m c [] (s.removeOrders l)
  | [], _, h => h
  | i :: l, _, h => Plan.removeOrders l (h.removeOrder i)

/-! ### An order placed in the schedule list -/

theorem setOrder_order (s : State) (i j : SlotNo) (o : Order) :
    (s.setOrder i o).order j = if j = i then some o else s.order j := by
  rw [State.setOrder, setSlot_order]

theorem placeOrder_order (s : State) (i j : SlotNo) (o : Order) :
    (s.placeOrder i o).order j = if j = i then some o else s.order j := setOrder_order s i j o

/-- The schedule list after a placing: the rest of it in its order, with the slot between those that the order does not
stand before and those that it does (R62). -/
theorem placeOrder_schedule (s : State) (i : SlotNo) (o : Order) :
    ∃ before after, s.schedule.filter (fun j => j != i) = before ++ after ∧
      (s.placeOrder i o).schedule = before ++ i :: after ∧
      (∀ j ∈ before, ∀ b, s.order j = some b → ¬s.ahead o b) ∧
      ∀ j rest b, after = j :: rest → s.order j = some b → s.ahead o b :=
  insertPlace_placed s i o _

theorem ahead_le {s : State} {a b : Order} (h : s.ahead a b) : s.distance a.nextEdge ≤ s.distance b.nextEdge := by
  rcases h with h | ⟨h, -⟩
  · exact h.le
  · exact h.le

theorem le_of_not_ahead {s : State} {a b : Order} (h : ¬s.ahead a b) :
    s.distance b.nextEdge ≤ s.distance a.nextEdge := Nat.le_of_not_lt fun hl => h (.inl hl)

/-- No order behind the place is nearer than the one placed: its neighbour is not, and the list ascends. -/
theorem le_behind_place {m : Nat} {s : State} {i : SlotNo} {o : Order} (h : ListLaw m (s.removeOrder i))
    {before after : List SlotNo} (hold : (s.removeOrder i).schedule = before ++ after)
    (hafter : ∀ j rest b, after = j :: rest → s.order j = some b → s.ahead o b) :
    ∀ j ∈ after, ∀ b, s.order j = some b → s.distance o.nextEdge ≤ s.distance b.nextEdge := by
  have hmem : ∀ j ∈ before ++ after, j ≠ i ∧ ∃ b, s.order j = some b := fun j hj => by
    obtain ⟨b, _, _, hb, -⟩ := (h.mem j).mp (by rwa [hold])
    exact ⟨(order_of_removeOrder hb).1, b, (order_of_removeOrder hb).2⟩
  have hsorted := h.sorted
  rw [hold, List.pairwise_append] at hsorted
  cases after with
  | nil => exact fun j hj => absurd hj List.not_mem_nil
  | cons x rest =>
    obtain ⟨hx, a, ha⟩ := hmem x (by simp)
    have hfirst := ahead_le (hafter x rest a rfl ha)
    intro j hj b hb
    rcases List.mem_cons.mp hj with rfl | hj
    · exact ahead_le (hafter j rest b rfl hb)
    · refine hfirst.trans ((List.pairwise_cons.mp hsorted.2.1).1 j hj a b ?_ ?_)
      · rwa [removeOrder_order, if_neg hx]
      · rwa [removeOrder_order, if_neg (hmem j (by simp [hj])).1]

theorem ListLaw.placeOrder {m : Nat} {s : State} {i : SlotNo} {o : Order} (h : ListLaw m (s.removeOrder i))
    {e : Time} {ph : Phase} (hs : o.state = .scheduled e ph) (hm : m ≤ s.distance e)
    (hh : s.distance e ≤ s.horizon) (hr : o.inRange s.horizon) : ListLaw m (s.placeOrder i o) := by
  obtain ⟨before, after, hold, hnew, hbefore, hafter⟩ := placeOrder_schedule s i o
  have hbehind := le_behind_place h hold hafter
  have hmem : ∀ j ∈ before ++ after, j ≠ i := fun j hj => by
    rw [← hold, List.mem_filter] at hj; simpa using hj.2
  have hself : ∀ b, (s.placeOrder i o).order i = some b → b = o := fun b hb => by
    rw [placeOrder_order, if_pos rfl] at hb; exact (Option.some.inj hb).symm
  have hoff : ∀ j b, j ≠ i → (s.placeOrder i o).order j = some b →
      s.order j = some b ∧ (s.removeOrder i).order j = some b := fun j b hj hb => by
    rw [placeOrder_order, if_neg hj] at hb
    exact ⟨hb, by rwa [removeOrder_order, if_neg hj]⟩
  have hnodup := h.nodup
  have hsorted := h.sorted
  rw [removeOrder_schedule, hold] at hnodup hsorted
  obtain ⟨hsorted1, hsorted2, hsorted3⟩ := List.pairwise_append.mp hsorted
  refine { nodup := ?_, mem := fun j => ?_, sorted := ?_, near := fun j b x ph' hb hx => ?_, spans := fun j b hb => ?_ }
  · rw [hnew, List.nodup_middle]
    exact List.nodup_cons.mpr ⟨fun hi => hmem i hi rfl, hnodup⟩
  · rw [hnew, placeOrder_order]
    have := h.mem j
    rw [removeOrder_schedule, hold, removeOrder_order] at this
    by_cases hj : j = i
    · subst hj; simp [hs]
    · simpa [hj] using this
  · rw [hnew]
    refine List.pairwise_append.mpr ⟨?_, List.pairwise_cons.mpr ⟨fun j hj a b ha hb => ?_, ?_⟩,
      fun j hj k hk a b ha hb => ?_⟩
    · exact hsorted1.imp_of_mem fun {x y} hx hy hxy a b ha hb =>
        hxy a b (hoff x a (hmem x (by simp [hx])) ha).2 (hoff y b (hmem y (by simp [hy])) hb).2
    · rw [hself a ha]
      exact hbehind j hj b (hoff j b (hmem j (by simp [hj])) hb).1
    · exact hsorted2.imp_of_mem fun {x y} hx hy hxy a b ha hb =>
        hxy a b (hoff x a (hmem x (by simp [hx])) ha).2 (hoff y b (hmem y (by simp [hy])) hb).2
    · have hja := hoff j a (hmem j (by simp [hj])) ha
      rcases List.mem_cons.mp hk with rfl | hk
      · rw [hself b hb]
        exact le_of_not_ahead (hbefore j hj a hja.1)
      · exact hsorted3 j hj k hk a b hja.2 (hoff k b (hmem k (by simp [hk])) hb).2
  · by_cases hj : j = i
    · subst hj
      rw [hself b hb, hs] at hx; cases hx
      exact ⟨hm, hh⟩
    · exact h.near j b x ph' (hoff j b hj hb).2 hx
  · by_cases hj : j = i
    · subst hj; rw [hself b hb]; exact hr
    · exact h.spans j b (hoff j b hj hb).2

/-- A slot that stands in no armed list. -/
abbrev State.unarmed (s : State) (i : SlotNo) : Prop := ∀ c, i ∉ s.armedOn c

theorem removeOrder_armedOn_of_unarmed {s : State} {i : SlotNo} (h : s.unarmed i) (c : InputNo) :
    (s.removeOrder i).armedOn c = s.armedOn c := by
  rw [removeOrder_armedOn, List.filter_eq_self]
  exact fun j hj => bne_iff_ne.mpr fun e => h c (e ▸ hj)

theorem ArmedLaw.placeOrder {c : InputNo} {left : List SlotNo} {s : State} {i : SlotNo} {o : Order}
    (h : ArmedLaw c left (s.removeOrder i)) (hi : s.unarmed i) (hs : o.state ≠ .armed) :
    ArmedLaw c left (s.placeOrder i o) := by
  have hsame : ∀ d, (s.placeOrder i o).armedWith c left d = (s.removeOrder i).armedWith c left d := fun d => by
    rw [State.armedWith, State.armedWith, removeOrder_armedOn_of_unarmed hi]; rfl
  refine { once := fun d => by rw [hsame]; exact h.once d, holds := fun d j => ?_, triggered := fun j b hb hx => ?_ }
  · rw [hsame, h.holds, removeOrder_order, placeOrder_order]
    by_cases hj : j = i
    · simp [hj, hs]
    · simp [hj]
  · rw [placeOrder_order] at hb
    split at hb
    · cases hb; exact absurd hx hs
    · exact h.triggered j b (by rwa [removeOrder_order, if_neg ‹_›]) hx

/-- An order at a distance within the bounds, whose spans are in range, may be placed in a slot that no armed list
has (R62). -/
theorem Plan.placeOrder {m : Nat} {c : InputNo} {left : List SlotNo} {s : State} {i : SlotNo} {o : Order}
    (h : Plan m c left (s.removeOrder i)) (hi : s.unarmed i) {e : Time} {ph : Phase}
    (hs : o.state = .scheduled e ph) (hm : m ≤ s.distance e) (hh : s.distance e ≤ s.horizon)
    (hr : o.inRange s.horizon) : Plan m c left (s.placeOrder i o) :=
  ⟨h.toListLaw.placeOrder hs hm hh hr, h.toArmedLaw.placeOrder hi (by rw [hs]; exact nofun)⟩

/-- A slot of a SCHEDULED order is neither armed nor still to be triggered. -/
theorem ArmedLaw.unarmed {c : InputNo} {left : List SlotNo} {s : State} (h : ArmedLaw c left s) {i : SlotNo}
    (hi : ∀ o, s.order i = some o → o.state ≠ .armed) : s.unarmed i ∧ left.filter (fun j => j != i) = left := by
  have hw : ∀ d, i ∉ s.armedWith c left d := fun d hd => by
    obtain ⟨o, _, ho, hs, -⟩ := (h.holds d i).mp hd
    exact hi o ho hs
  refine ⟨fun d hd => hw d (List.mem_append_left _ hd), List.filter_eq_self.mpr fun j hj => bne_iff_ne.mpr ?_⟩
  rintro rfl
  exact hw c (by simp [State.armedWith, hj])

/-! ### An order rewritten in its slot -/

/-- An order rewritten where it stands, with the state and the trigger it had (R94, R98). -/
theorem Plan.rewrite {m : Nat} {c : InputNo} {left : List SlotNo} {s : State} (h : Plan m c left s) {i : SlotNo}
    {a o : Order} (ha : s.order i = some a) (hs : o.state = a.state) (ht : o.trigger = a.trigger)
    (hr : o.inRange s.horizon) : Plan m c left (s.setOrder i o) := by
  have hedge : o.nextEdge = a.nextEdge := by simp only [Order.nextEdge, hs]
  have hback : ∀ j b, (s.setOrder i o).order j = some b →
      ∃ b', s.order j = some b' ∧ b.state = b'.state ∧ b.trigger = b'.trigger ∧ b.nextEdge = b'.nextEdge := by
    intro j b hb
    rw [setOrder_order] at hb
    split at hb
    · rename_i e; cases hb; exact ⟨a, by rw [e, ha], hs, ht, hedge⟩
    · exact ⟨b, hb, rfl, rfl, rfl⟩
  refine { nodup := h.nodup, mem := fun j => ?_, sorted := ?_, near := fun j b x ph hb hx => ?_
           spans := fun j b hb => ?_
           once := h.once, holds := fun d j => ?_, triggered := fun j b hb hx => ?_ }
  · show j ∈ s.schedule ↔ _
    rw [h.mem, setOrder_order]
    by_cases hj : j = i
    · simp [hj, ha, hs]
    · simp [hj]
  · refine h.sorted.imp fun {x y} hxy a' b' ha' hb' => ?_
    obtain ⟨a'', h1, -, -, e1⟩ := hback x a' ha'
    obtain ⟨b'', h2, -, -, e2⟩ := hback y b' hb'
    rw [e1, e2]
    exact hxy a'' b'' h1 h2
  · obtain ⟨b', h1, e1, -⟩ := hback j b hb
    exact h.near j b' x ph h1 (by rw [← e1, hx])
  · rw [setOrder_order] at hb
    split at hb
    · cases hb; exact hr
    · exact h.spans j b hb
  · show j ∈ s.armedWith c left d ↔ _
    rw [h.holds, setOrder_order]
    by_cases hj : j = i
    · simp [hj, ha, hs, ht]
    · simp [hj]
  · obtain ⟨b', h1, e1, e2, -⟩ := hback j b hb
    rw [e2]
    exact h.triggered j b' h1 (by rw [← e1, hx])

/-! ### What an edge leaves -/

@[simp] theorem distance_add (s : State) (x : Time) : s.distance (s.tb.t + x) = x.toNat := by
  simp [State.distance]

/-- A span as a number of ticks. -/
@[simp] theorem toNat_span (x : Span) : (x.setWidth 32 : Time).toNat = x.toNat := by
  rw [BitVec.toNat_setWidth]; exact Nat.mod_eq_of_lt (by omega)

/-- The order `o` waits for an edge that is a tick away or more, within the horizon, and its spans are in range. -/
def State.placeable (s : State) (o : Order) : Prop :=
  (∃ e ph, o.state = .scheduled e ph ∧ 1 ≤ s.distance e ∧ s.distance e ≤ s.horizon) ∧ o.inRange s.horizon

theorem placeable_add {s : State} {o : Order} {x : Span} {ph : Phase}
    (hs : o.state = .scheduled (s.tb.t + x.setWidth 32) ph) (h1 : 1 ≤ x.toNat) (hh : x.toNat ≤ s.horizon)
    (hr : o.inRange s.horizon) : s.placeable o :=
  ⟨⟨_, _, hs, by rwa [distance_add, toNat_span], by rwa [distance_add, toNat_span]⟩, hr⟩

/-- What an edge of the order in slot `i` leaves: commands and notices apart, the order is removed, or it is placed for
its next edge (R74 to R76, R84 to R91, R108, R109). -/
inductive EdgeEnd (s : State) (i : SlotNo) : State → Prop
  | removed {v t : State} : OnlyLines s v → OnlyPorts (v.removeOrder i) t → EdgeEnd s i t
  | placed {v t : State} {o : Order} : OnlyLines s v → s.placeable o → OnlyPorts (v.placeOrder i o) t → EdgeEnd s i t

theorem edgeEnd_suppress (s : State) (i : SlotNo) (o : Order) : EdgeEnd s i (s.suppress i o) :=
  .removed (OnlyLines.refl s) (appendNotice_frame _ _ _)

theorem edgeEnd_fireStep (s : State) (cause : EdgeCause) (i : SlotNo) (o : Order) (l : LineNo) (a : StepAction) :
    EdgeEnd s i (s.fireStep cause i o l a) := by
  unfold State.fireStep; split
  · exact .removed (edgeCommand_frame s cause l _) (fired_frame _ _ _ _)
  · exact edgeEnd_suppress s i o

theorem edgeEnd_firePattern (s : State) (cause : EdgeCause) (i : SlotNo) (o : Order) (g : GroupNo)
    (mask levels : BitVec 4) : EdgeEnd s i (s.firePattern cause i o g mask levels) := by
  unfold State.firePattern; split
  · exact .removed (patternCommands_frame s cause g _ _) (fired_frame _ _ _ _)
  · exact edgeEnd_suppress s i o

theorem edgeEnd_firePulseTrailing (s : State) (cause : EdgeCause) (i : SlotNo) (o : Order) (l : LineNo) :
    EdgeEnd s i (s.firePulseTrailing cause i o l) := by
  unfold State.firePulseTrailing; split
  · exact .removed (edgeCommand_frame s cause l _) (ended_frame _ _ _ _)
  · exact edgeEnd_suppress s i o

theorem edgeEnd_endTrain (s : State) (cause : EdgeCause) (i : SlotNo) (o : Order) (l : LineNo) (r : EndReason) :
    EdgeEnd s i (s.endTrain cause i o l r) := by
  unfold State.endTrain; split
  · exact .removed (edgeCommand_frame s cause l _) (ended_frame _ _ _ _)
  · exact .removed (OnlyLines.refl s) (appendNotice_frame _ _ _)

theorem edgeEnd_firePulseLeading {s : State} (cause : EdgeCause) (i : SlotNo) {o : Order} {l : LineNo} {w : Span}
    (hb : o.body = .pulse l w) (hr : o.inRange s.horizon) : EdgeEnd s i (s.firePulseLeading cause i o l w) := by
  have hw : 1 ≤ w.toNat ∧ w.toNat ≤ s.horizon := by simpa [Order.inRange, hb] using hr
  unfold State.firePulseLeading; split
  · have hf := edgeCommand_frame s cause l .assert
    refine .placed hf (placeable_add rfl hw.1 hw.2 ?_) (fired_frame _ _ _ _)
    simpa [Order.inRange, hb] using hw
  · exact edgeEnd_suppress s i o

/-- The width and the period in force after a pending revision are in range (R87, R93). -/
theorem inRange_revise {h : Nat} {o : Order} {l : LineNo} {x : TrainRec} (hb : o.body = .train l x)
    (hr : o.inRange h) (remaining : Option Half) :
    2 ≤ ({ x with remaining := remaining }.revise).period.toNat ∧
      ({ x with remaining := remaining }.revise).period.toNat ≤ h ∧
      ({ x with remaining := remaining }.revise).width.toNat ≤
        ({ x with remaining := remaining }.revise).period.toNat ∧
      ({ x with remaining := remaining }.revise).pending = none := by
  simp only [Order.inRange, hb] at hr
  obtain ⟨h1, h2, h3, h4, -⟩ := hr
  unfold TrainRec.revise
  dsimp only
  split
  · rename_i hp; exact ⟨h1, h2, h3, hp⟩
  · rename_i r hp
    obtain ⟨h5, h6, h7⟩ := h4 r hp
    exact ⟨h5, h6, h7, rfl⟩

theorem edgeEnd_widthStep {s : State} (cause : EdgeCause) (i : SlotNo) (o : Order) (l : LineNo) {x : TrainRec}
    (h2 : 2 ≤ x.period.toNat) (hh : x.period.toNat ≤ s.horizon) (hw : x.width.toNat ≤ x.period.toNat)
    (hp : x.pending = none) : EdgeEnd s i (s.widthStep cause i o l x) := by
  have hplace : ∀ started : Bool, s.placeable { o with
      body := .train l { x with begun := true }
      state := if x.width = 0 ∨ x.width = x.period then .scheduled (s.tb.t + x.period.setWidth 32) .leading
        else .scheduled (s.tb.t + x.width.setWidth 32) .trailing
      started := started } := by
    intro started
    by_cases hc : x.width = 0 ∨ x.width = x.period
    · refine placeable_add (by rw [if_pos hc]) (by omega) hh ?_
      refine ⟨h2, hh, hw, by simp [hp], fun e he => ?_⟩
      rw [if_pos hc] at he; cases he
    · have h0 : x.width.toNat ≠ 0 := fun e => hc (.inl (BitVec.eq_of_toNat_eq e))
      have h1 : x.width.toNat ≠ x.period.toNat := fun e => hc (.inr (BitVec.eq_of_toNat_eq e))
      refine placeable_add (by rw [if_neg hc]) (by omega) (by omega) ?_
      exact ⟨h2, hh, hw, by simp [hp], fun _ _ => ⟨Nat.pos_of_ne_zero h0, lt_of_le_of_ne hw h1⟩⟩
  unfold State.widthStep
  dsimp only
  split
  · exact .placed (edgeCommand_frame s cause l _) (hplace true) (fired_frame _ _ _ _)
  · exact .placed (OnlyLines.refl s) (hplace o.started) (OnlyPorts.refl _)

theorem edgeEnd_periodStart {s : State} (cause : EdgeCause) (i : SlotNo) {o : Order} {l : LineNo} {x : TrainRec}
    (hb : o.body = .train l x) (hr : o.inRange s.horizon) : EdgeEnd s i (s.periodStart cause i o l x) := by
  unfold State.periodStart
  split
  · exact edgeEnd_endTrain s cause i o l _
  · rename_i remaining _
    split
    · exact edgeEnd_endTrain s cause i o l _
    · obtain ⟨h1, h2, h3, h4⟩ := inRange_revise hb hr remaining
      exact edgeEnd_widthStep cause i o l h1 h2 h3 h4

theorem edgeEnd_trainTrailing {s : State} (cause : EdgeCause) (i : SlotNo) {o : Order} {l : LineNo} {x : TrainRec}
    {e : Time} (hb : o.body = .train l x) (hs : o.state = .scheduled e .trailing) (hr : o.inRange s.horizon) :
    EdgeEnd s i (s.trainTrailing cause i o l x) := by
  have hx := hr
  simp only [Order.inRange, hb] at hx
  obtain ⟨h1, h2, h3, h4, h5⟩ := hx
  obtain ⟨h6, h7⟩ := h5 e hs
  have hd : (x.period.setWidth 32 - x.width.setWidth 32 : Time).toNat = x.period.toNat - x.width.toNat := by
    rw [BitVec.toNat_sub_of_le (by rw [BitVec.le_def, toNat_span, toNat_span]; exact h3), toNat_span, toNat_span]
  refine .placed (edgeCommand_frame s cause l _) ⟨⟨_, _, rfl, ?_, ?_⟩, ?_⟩ (OnlyPorts.refl _)
  · rw [distance_add, hd]; omega
  · rw [distance_add, hd]; omega
  · simp only [Order.inRange, hb]
    exact ⟨h1, h2, h3, h4, fun _ h => by cases h⟩

/-- What an edge of an order whose spans are in range leaves (R73). -/
theorem edgeEnd_fireEdge {s : State} (cause : EdgeCause) (i : SlotNo) {o : Order} (hr : o.inRange s.horizon) :
    EdgeEnd s i (s.fireEdge cause i o) := by
  unfold State.fireEdge
  split
  · exact edgeEnd_fireStep s cause i o _ _
  · exact edgeEnd_firePattern s cause i o _ _ _
  · rename_i hb
    split
    · exact edgeEnd_firePulseTrailing s cause i o _
    all_goals exact edgeEnd_firePulseLeading cause i hb hr
  · rename_i hb
    split
    · rename_i hs; exact edgeEnd_trainTrailing cause i hb hs hr
    all_goals exact edgeEnd_periodStart cause i hb hr

/-- An edge keeps the plan of the other orders, and leaves its own order a tick away at least, if at all. -/
theorem EdgeEnd.plan {m : Nat} {c : InputNo} {left : List SlotNo} {s t : State} {i : SlotNo} (d : EdgeEnd s i t)
    (h : Plan m c left (s.removeOrder i)) (hi : s.unarmed i) (hm : m ≤ 1) : Plan m c left t := by
  cases d with
  | removed hv ht => exact ht.samePlan.plan ((hv.samePlan.removeOrder i).plan h)
  | placed hv ho ht =>
    obtain ⟨⟨e, ph, hs, h1, h2⟩, hr⟩ := ho
    have k := hv.samePlan
    refine ht.samePlan.plan (((k.removeOrder i).plan h).placeOrder (fun c => ?_) hs ?_ ?_ ?_)
    · rw [k.armed]; exact hi c
    · rw [k.distance]; omega
    · rwa [k.distance, k.horizon]
    · rwa [k.horizon]

end Sys2Proof.Machine
end

section
/-! The firing of the orders due (R73), and what else the part's own work does to the plan: cancellations, triggers and
samples keep it. -/

namespace Sys2Proof.Machine

/-! ### The orders due -/

theorem orderDue_iff (s : State) (i : SlotNo) :
    s.orderDue i = true ↔ ∃ o ph, s.order i = some o ∧ o.state = .scheduled s.tb.t ph := by
  unfold State.orderDue
  split
  · rename_i o ho
    split
    · rename_i t ph hs
      rw [beq_iff_eq, ho]
      constructor
      · rintro rfl; exact ⟨o, ph, rfl, hs⟩
      · rintro ⟨a, ph', ha, hs'⟩
        cases ha; rw [hs] at hs'; cases hs'; rfl
    · rename_i hs
      simp [ho, hs]
  · rename_i ho; simp [ho]

theorem noneDue_iff (s : State) : s.noneDue ↔ s.dueSlots = [] := by
  unfold State.noneDue State.dueSlots
  rw [List.filter_eq_nil_iff]
  simp only [orderDue_iff, not_exists, not_and]

/-- Due at T are the slots whose order is, in the order of the list; nothing else is read. -/
theorem SamePlan.orderDue {s t : State} (k : SamePlan s t) (i : SlotNo) : t.orderDue i = s.orderDue i := by
  simp only [State.orderDue, k.order, k.time]

theorem SamePlan.dueSlots {s t : State} (k : SamePlan s t) : t.dueSlots = s.dueSlots := by
  unfold State.dueSlots
  rw [k.schedule]
  exact List.filter_congr fun i _ => k.orderDue i

theorem removeOrder_orderDue (s : State) (i j : SlotNo) :
    (s.removeOrder i).orderDue j = (s.orderDue j && j != i) := by
  have ht : (s.removeOrder i).tb = s.tb := rfl
  unfold State.orderDue
  rw [removeOrder_order, ht]
  by_cases h : j = i <;> simp [h]

/-- A removal takes its slot from those due. -/
theorem removeOrder_dueSlots (s : State) (i : SlotNo) :
    (s.removeOrder i).dueSlots = s.dueSlots.filter (fun j => j != i) := by
  unfold State.dueSlots
  rw [removeOrder_schedule, List.filter_filter, List.filter_filter]
  refine List.filter_congr fun j _ => ?_
  rw [removeOrder_orderDue]
  by_cases h : j = i <;> simp [h, Bool.and_comm]

/-- An order placed a tick away or more is not due, and those that were due stay in their order. -/
theorem placeOrder_dueSlots {s : State} {i : SlotNo} {o : Order} (ho : s.placeable o) :
    (s.placeOrder i o).dueSlots = s.dueSlots.filter (fun j => j != i) := by
  obtain ⟨⟨e, ph, hs, h1, -⟩, -⟩ := ho
  obtain ⟨before, after, hold, hnew, -⟩ := placeOrder_schedule s i o
  have hself : (s.placeOrder i o).orderDue i = false := by
    rw [Bool.eq_false_iff]
    intro hd
    obtain ⟨a, ph', ha, ha'⟩ := (orderDue_iff _ _).mp hd
    rw [placeOrder_order, if_pos rfl] at ha
    cases ha
    rw [hs] at ha'
    cases ha'
    have : (s.placeOrder i o).tb = s.tb := rfl
    rw [this] at h1
    simp [State.distance] at h1
  have hother : ∀ j, j ≠ i → (s.placeOrder i o).orderDue j = s.orderDue j := fun j hj => by
    have : (s.placeOrder i o).tb = s.tb := rfl
    simp only [State.orderDue, placeOrder_order, if_neg hj, this]
  have hsplit : (s.placeOrder i o).dueSlots = (before ++ after).filter (s.placeOrder i o).orderDue := by
    unfold State.dueSlots
    rw [hnew, List.filter_append, List.filter_append, List.filter_cons, hself]
    rfl
  rw [hsplit, ← hold, State.dueSlots, List.filter_filter, List.filter_filter]
  refine List.filter_congr fun j _ => ?_
  by_cases h : j = i
  · simp [h]
  · simp [hother j h, Bool.and_comm]

/-- An edge takes its slot from those due (R73). -/
theorem EdgeEnd.dueSlots {s t : State} {i : SlotNo} (d : EdgeEnd s i t) :
    t.dueSlots = s.dueSlots.filter (fun j => j != i) := by
  cases d with
  | removed hv ht => rw [ht.samePlan.dueSlots, removeOrder_dueSlots, hv.samePlan.dueSlots]
  | @placed v _ o hv ho ht =>
    have hv' : v.placeable o := by
      simpa only [State.placeable, hv.samePlan.distance, hv.samePlan.horizon] using ho
    rw [ht.samePlan.dueSlots, placeOrder_dueSlots hv', hv.samePlan.dueSlots]

theorem head_of_dueSlots {s : State} {i : SlotNo} {rest : List SlotNo} (h : s.dueSlots = i :: rest) :
    i ∈ s.schedule ∧ s.orderDue i = true := by
  have hi : i ∈ s.dueSlots := by rw [h]; exact List.mem_cons_self
  exact List.mem_filter.mp hi

/-! ### What stands after an edge -/

/-- The slots and spans of the schedule list after an edge: what R73 needs of the next edge. -/
structure Fireable (s : State) : Prop where
  nodup : s.schedule.Nodup
  spans : ∀ i o, s.order i = some o → o.inRange s.horizon

theorem ListLaw.fireable {m : Nat} {s : State} (h : ListLaw m s) : Fireable s := ⟨h.nodup, h.spans⟩

theorem SamePlan.fireable {s t : State} (k : SamePlan s t) (h : Fireable s) : Fireable t :=
  ⟨by rw [k.schedule]; exact h.nodup, by simpa only [k.order, k.horizon] using h.spans⟩

theorem Fireable.removeOrder {s : State} (h : Fireable s) (i : SlotNo) : Fireable (s.removeOrder i) :=
  ⟨h.nodup.filter _, fun j o ho => h.spans j o (order_of_removeOrder ho).2⟩

theorem Fireable.placeOrder {s : State} (h : Fireable s) (i : SlotNo) {o : Order} (ho : s.placeable o) :
    Fireable (s.placeOrder i o) := by
  obtain ⟨before, after, hold, hnew, -⟩ := placeOrder_schedule s i o
  refine ⟨?_, fun j b hb => ?_⟩
  · rw [hnew, List.nodup_middle, ← hold]
    exact List.nodup_cons.mpr ⟨by simp, h.nodup.filter _⟩
  · rw [placeOrder_order] at hb
    split at hb
    · cases hb; exact ho.2
    · exact h.spans j b hb

theorem EdgeEnd.fireable {s t : State} {i : SlotNo} (d : EdgeEnd s i t) (h : Fireable s) : Fireable t := by
  cases d with
  | removed hv ht => exact ht.samePlan.fireable ((hv.samePlan.fireable h).removeOrder i)
  | @placed v _ o hv ho ht =>
    have hv' : v.placeable o := by
      simpa only [State.placeable, hv.samePlan.distance, hv.samePlan.horizon] using ho
    exact ht.samePlan.fireable ((hv.samePlan.fireable h).placeOrder i hv')

/-! ### The firing -/

theorem fireDueSlot_of_due {s : State} {i : SlotNo} {o : Order} (ho : s.order i = some o)
    (hd : s.orderDue i = true) : s.fireDueSlot i = s.fireEdge .due i o := by
  simp [State.fireDueSlot, ho, hd]

/-- Firing goes on with the rest of the slots due (R73). -/
theorem fireDue_eq_fireDue_fireEdge {s : State} {i : SlotNo} {rest : List SlotNo} {o : Order} (h : Fireable s)
    (hdue : s.dueSlots = i :: rest) (ho : s.order i = some o) :
    (s.fireEdge .due i o).dueSlots = rest ∧ s.fireDue = (s.fireEdge .due i o).fireDue := by
  have hnd : (i :: rest).Nodup := by rw [← hdue]; exact h.nodup.filter _
  have hrest : (s.fireEdge .due i o).dueSlots = rest := by
    rw [(edgeEnd_fireEdge .due i (h.spans i o ho)).dueSlots, hdue, List.filter_cons, if_neg (by simp),
      List.filter_eq_self]
    exact fun j hj => bne_iff_ne.mpr fun e => (List.nodup_cons.mp hnd).1 (e ▸ hj)
  refine ⟨hrest, ?_⟩
  rw [State.fireDue, State.fireDue, hdue, hrest, List.foldl_cons,
    fireDueSlot_of_due ho (head_of_dueSlots hdue).2]

/-- What each edge of an order due keeps, the firing of all that are due keeps, and then none is due (R73). -/
theorem fireDue_induction {Q : State → Prop} {s : State} (hs : Fireable s) (hq : Q s)
    (step : ∀ u i o ph, Fireable u → Q u → i ∈ u.schedule → u.order i = some o →
      o.state = .scheduled u.tb.t ph → Q (u.fireEdge .due i o)) :
    Q s.fireDue ∧ s.fireDue.dueSlots = [] ∧ Fireable s.fireDue := by
  generalize hl : s.dueSlots = l
  induction l generalizing s with
  | nil =>
    have : s.fireDue = s := by rw [State.fireDue, hl]; rfl
    rw [this]
    exact ⟨hq, hl, hs⟩
  | cons i rest ih =>
    obtain ⟨hsched, hdue⟩ := head_of_dueSlots hl
    obtain ⟨o, ph, ho, hst⟩ := (orderDue_iff _ _).mp hdue
    obtain ⟨hrest, hfire⟩ := fireDue_eq_fireDue_fireEdge hs hl ho
    rw [hfire]
    exact ih ((edgeEnd_fireEdge .due i (hs.spans i o ho)).fireable hs) (step s i o ph hs hq hsched ho hst) hrest

/-- Behind the firing none is due. -/
theorem dueSlots_fireDue {s : State} (h : Fireable s) : s.fireDue.dueSlots = [] :=
  (fireDue_induction (Q := fun _ => True) h trivial fun _ _ _ _ _ _ _ _ _ => trivial).2.1

/-- The firing keeps the plan (R73). -/
theorem Plan.fireDue {m : Nat} {c : InputNo} {left : List SlotNo} {s : State} (h : Plan m c left s) (hm : m ≤ 1) :
    Plan m c left s.fireDue := by
  refine (fireDue_induction (Q := Plan m c left) h.toListLaw.fireable h fun u i o ph _ hu _ ho hs => ?_).1
  obtain ⟨hi, hleft⟩ := hu.toArmedLaw.unarmed (i := i) fun a ha => by
    rw [ho] at ha; cases ha; rw [hs]; exact nofun
  have hoff := hu.removeOrder i
  rw [hleft] at hoff
  exact (edgeEnd_fireEdge .due i (hu.spans i o ho)).plan hoff hi hm

/-- Where none is due, every SCHEDULED order is a tick away or more. -/
theorem Plan.undue {m : Nat} {c : InputNo} {left : List SlotNo} {s : State} (h : Plan m c left s)
    (hn : s.dueSlots = []) : Plan 1 c left s := by
  refine { h with near := fun i o e ph ho hs => ⟨?_, (h.near i o e ph ho hs).2⟩ }
  have hi : i ∈ s.schedule := (h.mem i).mpr ⟨o, e, ph, ho, hs⟩
  have hne := (noneDue_iff s).mpr hn i hi o ph ho
  rw [hs] at hne
  rw [Nat.one_le_iff_ne_zero]
  intro hd
  refine hne ?_
  have : e - s.tb.t = 0 := BitVec.eq_of_toNat_eq hd
  rw [BitVec.sub_eq_iff_eq_add.mp this]
  simp

theorem Plan.fireDue_undue {m : Nat} {c : InputNo} {left : List SlotNo} {s : State} (h : Plan m c left s)
    (hm : m ≤ 1) : Plan 1 c left s.fireDue :=
  (h.fireDue hm).undue (dueSlots_fireDue h.toListLaw.fireable)

/-- T advances where no order is due: every distance falls by one (R1, R62). -/
theorem Plan.advance {c : InputNo} {left : List SlotNo} {s : State} (h : Plan 1 c left s) :
    Plan 0 c left s.advance := by
  have hd : ∀ e, 1 ≤ s.distance e → s.advance.distance e = s.distance e - 1 := fun e he => by
    simp only [State.distance, State.advance] at he ⊢
    bv_omega
  have hnext : ∀ i o, i ∈ s.schedule → s.order i = some o → 1 ≤ s.distance o.nextEdge := fun i o hi ho => by
    obtain ⟨a, e, ph, ha, hs⟩ := (h.mem i).mp hi
    rw [ho] at ha; cases ha
    have := (h.near i o e ph ho hs).1
    simpa [Order.nextEdge, hs] using this
  refine { nodup := h.nodup, mem := h.mem, sorted := ?_, spans := h.spans, once := h.once, holds := h.holds
           triggered := h.triggered
           near := fun i o e ph ho hs => ⟨Nat.zero_le _, ?_⟩ }
  · refine h.sorted.imp_of_mem fun {i j} hi hj hij a b ha hb => ?_
    have hle := hij a b ha hb
    rw [hd _ (hnext i a hi ha), hd _ (hnext j b hj hb)]
    omega
  · obtain ⟨h1, h2⟩ := h.near i o e ph ho hs
    rw [hd _ h1]
    exact (Nat.sub_le _ _).trans h2

/-! ### Cancellations -/

theorem Plan.cancelOrder {m : Nat} {c : InputNo} {s : State} (h : Plan m c [] s) (i : SlotNo) :
    Plan m c [] (s.cancelOrder i) := by
  unfold State.cancelOrder
  split
  · exact h
  · split
    · exact ((command_frame s _ _).samePlan.plan h).removeOrder i
    · exact h.removeOrder i

/-! ### Triggers (R129, R130) -/

/-- The distances of a time in the class future, and of one beyond the horizon (R3). -/
theorem classify_future {s : State} {t : Time} (h : s.classify t = .future) :
    1 ≤ s.distance t ∧ s.distance t ≤ s.horizon := by
  unfold State.classify at h
  split at h
  · assumption
  · split at h <;> cases h

theorem classify_beyond {s : State} {t : Time} (h : s.classify t = .beyond) :
    s.horizon < s.distance t ∧ s.distance t ≤ 2 ^ 31 := by
  unfold State.classify at h
  split at h
  · cases h
  · split at h
    · assumption
    · cases h

/-- The due time of a triggered order is never beyond the horizon: the edge is at most a filter's length behind, and the
offset at most 65,535 ticks (R129). -/
theorem trigger_not_beyond {s : State} {e : Time} (hh : 16 ≤ s.tb.h) (he : (s.tb.t - e).toNat ≤ 255) (x : Half) :
    s.classify (e + x.setWidth 32) ≠ .beyond := by
  intro hb
  obtain ⟨h1, h2⟩ := classify_beyond hb
  have hH : 2 ^ 16 ≤ s.horizon := Nat.pow_le_pow_right (by decide) hh
  unfold State.distance at h1 h2
  bv_omega

/-- The slot next to be triggered stands in no armed list and not among the rest. -/
theorem ArmedLaw.next_unarmed {c : InputNo} {left : List SlotNo} {s : State} {i : SlotNo}
    (h : ArmedLaw c (i :: left) s) : s.unarmed i ∧ left.filter (fun j => j != i) = left := by
  have hc : i ∈ s.armedWith c (i :: left) c := by simp [State.armedWith]
  have hnd := h.once c
  rw [State.armedWith, if_pos rfl, List.nodup_append] at hnd
  obtain ⟨-, hleft, hapart⟩ := hnd
  refine ⟨fun d hd => ?_, List.filter_eq_self.mpr fun j hj => bne_iff_ne.mpr fun e =>
    (List.nodup_cons.mp hleft).1 (e ▸ hj)⟩
  obtain ⟨o, tr, ho, -, ht, hin⟩ := (h.holds c i).mp hc
  obtain ⟨o', tr', ho', -, ht', hin'⟩ := (h.holds d i).mp (List.mem_append_left _ hd)
  rw [ho] at ho'; cases ho'
  rw [ht] at ht'; cases ht'
  rw [← hin', hin] at hd
  exact hapart i hd i List.mem_cons_self rfl

theorem Plan.without_next {m : Nat} {c : InputNo} {left : List SlotNo} {s : State} {i : SlotNo}
    (h : Plan m c (i :: left) s) : Plan m c left (s.removeOrder i) := by
  have hr := h.removeOrder i
  rwa [List.filter_cons, if_neg (by simp), h.toArmedLaw.next_unarmed.2] at hr

/-- A slot written and then removed: the plan is that without the slot. -/
theorem samePlan_removeOrder_setOrder (s : State) (i : SlotNo) (o : Order) :
    SamePlan (s.removeOrder i) ((s.setOrder i o).removeOrder i) where
  order j := by
    simp only [removeOrder_order, setOrder_order]
    split <;> rfl
  schedule := rfl
  armed c := by simp only [removeOrder_armedOn]; rfl
  time := rfl
  exponent := rfl

/-- The phase in which an order becomes SCHEDULED is no trailing one, so its spans stay in range (R67, R89). -/
theorem inRange_firstPhase {h : Nat} {o : Order} (hr : o.inRange h) (e : Time) :
    ({ o with state := .scheduled e o.body.firstPhase } : Order).inRange h := by
  have hb := hr
  unfold Order.inRange at hb ⊢
  dsimp only
  split at hb
  · trivial
  · exact hb
  · rename_i hbody
    rw [hbody]
    obtain ⟨h1, h2, h3, h4, -⟩ := hb
    exact ⟨h1, h2, h3, h4, fun _ he => by cases he⟩
  · trivial

/-- A trigger keeps the plan: its order leaves those still to be triggered and is scheduled, applied or removed. -/
theorem Plan.trigger {m : Nat} {c : InputNo} {left : List SlotNo} {s : State} {i : SlotNo} {e : Time}
    (h : Plan m c (i :: left) s) (hm : m ≤ 1) (hh : 16 ≤ s.tb.h) (he : (s.tb.t - e).toNat ≤ 255) :
    Plan m c left (s.trigger e i) := by
  obtain ⟨o, tr, ho, hs, ht, -⟩ := (h.holds c i).mp (by simp [State.armedWith])
  have hr := inRange_firstPhase (h.spans i o ho)
  simp only [State.trigger, ho, hs, ht]
  split
  · exact (appendNotice_frame _ _ _).samePlan.plan h.without_next
  · have hfired := h.fireDue hm
    have hhor : ∀ a, (s.fireDue.setOrder i a).horizon = s.horizon := fun a => by
      simp only [State.horizon, State.setOrder, State.setSlot_tb, (fireDue_frame s).tb]
    refine EdgeEnd.plan (edgeEnd_fireEdge .atTrigger i ?_) ?_ hfired.toArmedLaw.next_unarmed.1 hm
    · rw [hhor]; exact hr _
    · exact (samePlan_removeOrder_setOrder _ i _).plan hfired.without_next
  · rename_i hc
    obtain ⟨h1, h2⟩ := classify_future hc
    exact h.without_next.placeOrder h.toArmedLaw.next_unarmed.1 rfl (by omega) h2 (hr _)
  · rename_i hc
    exact absurd hc (trigger_not_beyond hh he tr.offset)

/-- Every trigger of an accepted edge keeps the plan (R129). -/
theorem Plan.triggers {m : Nat} {c : InputNo} {e : Time} : ∀ (left : List SlotNo) {s : State}, Plan m c left s →
    m ≤ 1 → 16 ≤ s.tb.h → (s.tb.t - e).toNat ≤ 255 → Plan m c [] (left.foldl (State.trigger e) s)
  | [], _, h, _, _, _ => h
  | i :: left, s, h, hm, hh, he => by
    have htb := (trigger_frame e s i).tb
    exact Plan.triggers left (h.trigger hm hh he) hm (by rwa [htb]) (by rwa [htb])

theorem Plan.triggerAll {m : Nat} {c d : InputNo} {s : State} {e : Time} (h : Plan m d [] s) (hm : m ≤ 1)
    (hh : 16 ≤ s.tb.h) (he : (s.tb.t - e).toNat ≤ 255) : Plan m d [] (s.triggerAll c e) := by
  have hwith : ∀ x, (s.setArmed c []).armedWith c (s.armedOn c) x = s.armedWith d [] x := fun x => by
    rw [armedWith_nil, State.armedWith, State.setArmed_armedOn]
    split
    · rename_i hx; rw [hx]; rfl
    · exact List.append_nil _
  have h0 : Plan m c (s.armedOn c) (s.setArmed c []) :=
    { nodup := h.nodup, mem := h.mem, sorted := h.sorted, near := h.near, spans := h.spans, triggered := h.triggered
      once := fun x => by rw [hwith]; exact h.once x
      holds := fun x j => by rw [hwith]; exact h.holds x j }
  have h1 := Plan.triggers (s.armedOn c) h0 hm hh he
  unfold State.triggerAll
  exact { h1 with
    once := fun x => by simpa using h1.once x
    holds := fun x j => by simpa using h1.holds x j }

/-! ### Samples (R115 to R117) -/

/-- Room, record and notices of an acceptance leave the plan (R122). -/
theorem samePlan_makeRoom (s : State) : SamePlan s s.makeRoom := by
  have hc : ∀ (u : State) (x : StationSet), SamePlan u (u.countLost x) := fun u x => by
    exact foldl_frame (R := SamePlan) (f := fun s n => s.setLost n (satInc (s.lostOf n))) SamePlan.refl SamePlan.trans
      (fun _ _ => .of_eq rfl rfl rfl rfl rfl) _ u
  unfold State.makeRoom
  split
  · exact .refl s
  · split
    · exact .refl s
    · rename_i r rest _
      have k := hc { s with journal := rest } r.readers
      exact ⟨k.order, k.schedule, k.armed, k.time, k.exponent⟩

theorem Plan.accept {m : Nat} {d : InputNo} {s : State} (h : Plan m d [] s) (hm : m ≤ 1) (hh : 16 ≤ s.tb.h)
    (c : InputNo) (dir : Direction) {e : Time} (he : (s.tb.t - e).toNat ≤ 255) : Plan m d [] (s.accept c dir e) := by
  have hk : SamePlan s.makeRoom (s.makeRoom.appendRecord c dir e) := .of_eq rfl rfl rfl rfl rfl
  have hr := hk.plan ((samePlan_makeRoom s).plan h)
  have hf := appendNotices_frame (s.makeRoom.appendRecord c dir e)
    (fun n => inSet (s.makeRoom.input c).subscribers n && s.makeRoom.unread n == 0)
    (.captureReady s.makeRoom.captureSeq c)
  have htb : (s.makeRoom.appendRecord c dir e).tb = s.tb := (makeRoom_frame s).tb
  exact (hf.samePlan.plan hr).triggerAll hm (by rwa [hf.tb, htb]) (by rwa [hf.tb, htb])

theorem samePlan_setInputState (s : State) (c : InputNo) (x : InputState) : SamePlan s (s.setInputState c x) :=
  .of_eq rfl rfl rfl rfl rfl

theorem Plan.transition {m : Nat} {d : InputNo} {s : State} (h : Plan m d [] s) (hm : m ≤ 1) (hh : 16 ≤ s.tb.h)
    (c : InputNo) (x : InputSettings) (reference level : Level) :
    Plan m d [] (s.transition c x reference level) := by
  have hset : ∀ y, Plan m d [] (s.setInputState c y) := fun y => (samePlan_setInputState s c y).plan h
  unfold State.transition
  split
  · split
    · exact (hset _).accept hm hh c _ (by simp [State.setInputState])
    · exact hset _
  · exact hset _

/-- A filter closes at most 255 ticks behind its edge (R117). -/
theorem closeTime_near {t : Time} {edge : EdgeInFilter} {x : InputSettings} (h : t = closeTime edge x) :
    (t - edge.edgeTime).toNat ≤ 255 := by
  rw [h, closeTime]
  have := x.filter.isLt
  bv_omega

theorem Plan.filterSample {m : Nat} {d : InputNo} {s : State} (h : Plan m d [] s) (hm : m ≤ 1) (hh : 16 ≤ s.tb.h)
    (c : InputNo) (x : InputSettings) (reference : Level) (edge : EdgeInFilter) (level : Level) :
    Plan m d [] (s.filterSample c x reference edge level) := by
  have hset : ∀ y, Plan m d [] (s.setInputState c y) := fun y => (samePlan_setInputState s c y).plan h
  unfold State.filterSample
  split
  · rename_i ht
    split
    · exact (hset _).accept hm hh c _ (closeTime_near ht)
    · exact hset _
  · split
    · exact hset _
    · exact h

/-- A sample keeps the plan (R115). -/
theorem Plan.sample {m : Nat} {d : InputNo} {s : State} (h : Plan m d [] s) (hm : m ≤ 1) (hh : 16 ≤ s.tb.h)
    (c : InputNo) (level : Level) : Plan m d [] (s.sample c level) := by
  unfold State.sample
  split
  · split
    · exact (samePlan_setInputState s c _).plan h
    · split
      · exact h
      · exact h.transition hm hh c _ _ _
    · exact h.filterSample hm hh c _ _ _ _
    · exact h
  · exact h

theorem Plan.closeFilter {m : Nat} {d : InputNo} {s : State} (h : Plan m d [] s) (hm : m ≤ 1) (hh : 16 ≤ s.tb.h)
    (c : InputNo) : Plan m d [] (s.closeFilter c) := by
  unfold State.closeFilter
  split
  · exact h.sample hm hh c _
  · exact h

/-- The work due at T, done whole, leaves every SCHEDULED order a tick away or more, and so T may advance (R1). -/
theorem Plan.settle {d : InputNo} {s : State} (h : Plan 0 d [] s) (hh : 16 ≤ s.tb.h) : Plan 1 d [] s.settle := by
  have h0 := (completeGaps_frame s.fireDue).samePlan.plan (h.fireDue_undue (Nat.zero_le 1))
  have htb : s.fireDue.completeGaps.tb = s.tb := by rw [(completeGaps_frame _).tb, (fireDue_frame s).tb]
  refine (foldl_kept (P := fun u => Plan 1 d [] u ∧ 16 ≤ u.tb.h) (fun u c hu => ⟨hu.1.closeFilter le_rfl hu.2 c, ?_⟩)
    _ _ ⟨h0, by rwa [htb]⟩).1
  rw [(closeFilter_frame u c).tb]; exact hu.2

end Sys2Proof.Machine
end

section
/-! The law of the schedule, kept by every step together with the laws of the timebase that it leans on: first what keeps
the three of them, then every owner of a request, every event and every step. -/

namespace Sys2Proof.Machine

/-- The plan of orders (R62, R63) and the laws of the timebase (R12, Table 1-1). -/
abbrev State.planLaws (s : State) : Prop := Plan 0 0 [] s ∧ s.haltedLaw ∧ s.timebaseLaw

theorem planLaws_iff (s : State) : s.planLaws ↔ s.scheduleLaw ∧ s.haltedLaw ∧ s.timebaseLaw := by
  rw [scheduleLaw_iff s 0]

/-! ### What keeps the laws -/

/-- Work that brings nothing new keeps the laws where it keeps the plan. -/
theorem NoNewWork.planLaws {s t : State} (a : NoNewWork s t) (h : s.planLaws) (hp : Plan 0 0 [] t) : t.planLaws := by
  obtain ⟨-, hhalted, htime⟩ := h
  exact ⟨hp, haltedLaw_of hhalted a.tb a.orders a.gaps, by unfold State.timebaseLaw; rwa [a.tb]⟩

/-- A change that the laws do not read: they read the timebase, the pair units, the slots and the two lists. -/
theorem planLaws_congr {s t : State} (h : s.planLaws) (htb : t.tb = s.tb) (hp : t.pairs = s.pairs)
    (hsl : t.slots = s.slots) (hsc : t.schedule = s.schedule) (ha : t.armed = s.armed) : t.planLaws := by
  obtain ⟨hplan, hhalted, htime⟩ := h
  have ho : ∀ i, t.order i = s.order i := fun i => by simp only [State.order, State.slot, hsl]
  have hk : ∀ k, t.pair k = s.pair k := fun k => by simp only [State.pair, hp]
  refine ⟨(SamePlan.of_eq hsl hsc ha (by rw [htb]) (by rw [htb])).plan hplan, ?_, ?_⟩
  · exact haltedLaw_of hhalted htb (fun i o hi => ⟨o, by rwa [← ho], rfl⟩) fun _ k hg => by rwa [← hk]
  · unfold State.timebaseLaw; rwa [htb]

theorem OnlyLeases.planLaws {s t : State} (a : OnlyLeases s t) (h : s.planLaws) : t.planLaws := by
  rw [a.1]; exact planLaws_congr h rfl rfl rfl rfl rfl

theorem OnlyClaims.samePlan {s t : State} (h : OnlyClaims s t) : SamePlan s t :=
  .of_eq h.slots h.schedule h.armed (by rw [h.tb]) (by rw [h.tb])

theorem OnlyGroups.samePlan {s t : State} (h : OnlyGroups s t) : SamePlan s t :=
  .of_eq h.slots h.schedule h.armed (by rw [h.tb]) (by rw [h.tb])

/-- Calm work that leaves the plan as it is. -/
theorem Calm.planLaws {s t : State} (a : Calm s t) (k : SamePlan s t) (h : s.planLaws) : t.planLaws :=
  a.toNoNewWork.planLaws h (k.plan h.1)

/-- A change of the timebase within its law. It leaves RUNNING, or stays outside, only where no order and no gap exists,
and sets T or the horizon only where no order exists. -/
theorem planLaws_setTb {s : State} (h : s.planLaws) {b : Timebase} (hd : b.d ≤ 10) (hh : 16 ≤ b.h ∧ b.h ≤ 30)
    (ha : b.state ≠ .armed → b.arming = none ∧ b.armTimer = none)
    (hi : b.state ≠ .running → (∀ i, s.order i = none) ∧ ∀ k, (s.pair k).state.inGap = false)
    (ht : (b.t = s.tb.t ∧ b.h = s.tb.h) ∨ ∀ i, s.order i = none) : ({ s with tb := b } : State).planLaws := by
  obtain ⟨hplan, -, -⟩ := h
  refine ⟨?_, fun hr => hi ((not_running_iff _).mp hr), hd, hh.1, hh.2, ha⟩
  rcases ht with ⟨h1, h2⟩ | hnone
  · exact SamePlan.plan (s := s) (t := { s with tb := b }) (.of_eq rfl rfl rfl h1 h2) hplan
  · have hno : ∀ i o, s.order i ≠ some o := fun i o ho => by rw [hnone i] at ho; cases ho
    have hempty : s.schedule = [] := List.eq_nil_iff_forall_not_mem.mpr fun i hi => by
      obtain ⟨o, _, _, ho, -⟩ := (hplan.mem i).mp hi
      exact hno i o ho
    exact { nodup := hplan.nodup, mem := hplan.mem, once := hplan.once, holds := hplan.holds
            triggered := hplan.triggered
            sorted := by show s.schedule.Pairwise _; rw [hempty]; exact List.Pairwise.nil
            near := fun i o _ _ ho => absurd ho (hno i o), spans := fun i o ho => absurd ho (hno i o) }

/-- The same with T and the exponents as they stand, and the timebase no nearer to a halt. -/
theorem planLaws_setTb_same {s : State} (h : s.planLaws) {b : Timebase} (ht : b.t = s.tb.t) (hd : b.d = s.tb.d)
    (hh : b.h = s.tb.h) (ha : b.state ≠ .armed → b.arming = none ∧ b.armTimer = none)
    (hr : b.state = .running ∨ s.tb.state ≠ .running) : ({ s with tb := b } : State).planLaws := by
  have ⟨_, hhalted, hd', hl, hu, _⟩ := h
  refine planLaws_setTb h (by rwa [hd]) (by rw [hh]; exact ⟨hl, hu⟩) ha (fun hb => ?_) (.inl ⟨ht, hh⟩)
  exact hhalted ((not_running_iff s).mpr (hr.resolve_left hb))

/-! ### Orders removed, teardowns and expiries -/

theorem planLaws_removeOrders {s : State} (h : s.planLaws) (l : List SlotNo) : (s.removeOrders l).planLaws :=
  (calm_removeOrders s l).toNoNewWork.planLaws h (Plan.removeOrders l h.1)

/-- An order rewritten where it stands, with the station, the state and the trigger it had. -/
theorem planLaws_setOrder {s : State} (h : s.planLaws) {i : SlotNo} {a o : Order} (ha : s.order i = some a)
    (hn : a.station = o.station) (hs : o.state = a.state) (ht : o.trigger = a.trigger) (hr : o.inRange s.horizon) :
    (s.setOrder i o).planLaws :=
  (calm_setOrder ha hn).toNoNewWork.planLaws h (h.1.rewrite ha hs ht hr)

theorem planLaws_cancelOrder {s : State} (h : s.planLaws) (i : SlotNo) : (s.cancelOrder i).planLaws :=
  (calm_cancelOrder s i).toNoNewWork.planLaws h (h.1.cancelOrder i)

theorem planLaws_disarm {s : State} (h : s.planLaws) (n : StationNo) : (s.disarm n).planLaws := by
  unfold State.disarm
  split
  · have ⟨_, _, _, _, _, harm⟩ := h
    exact planLaws_setTb_same h rfl rfl rfl (fun hs => ⟨rfl, (harm hs).2⟩) (em (s.tb.state = .running))
  · exact h

theorem planLaws_teardown {s : State} (h : s.planLaws) (n : StationNo) (lapsed : Bool) :
    (s.teardown n lapsed).planLaws := by
  have h1 : (s.endSession n lapsed).planLaws := planLaws_congr h rfl rfl rfl rfl rfl
  have h2 : ((s.endSession n lapsed).orderTeardown n).planLaws :=
    planLaws_congr (planLaws_removeOrders h1 _) rfl rfl rfl rfl rfl
  have h3 := (calm_claimTeardown _ n).planLaws (claimTeardown_frame _ n).samePlan h2
  exact planLaws_disarm ((calm_captureTeardown _ n).planLaws (.of_eq rfl rfl rfl rfl rfl) h3) n

theorem planLaws_lapse (s : State) (n : StationNo) (h : s.planLaws) : (s.lapse n).planLaws := by
  unfold State.lapse; split
  · exact (portTeardown_frame _ n false).leases.planLaws (planLaws_teardown h n true)
  · exact h

theorem planLaws_filterWaiting {s : State} (h : s.planLaws) (q : WaitingClaim → Bool) :
    ({ s with waiting := s.waiting.filter q } : State).planLaws := planLaws_congr h rfl rfl rfl rfl rfl

theorem planLaws_grantScan {s : State} (h : s.planLaws) : s.grantScan.planLaws :=
  (calm_grantScan s).planLaws (grantScan_frame s).samePlan h

theorem planLaws_expireWaits (s : State) (h : s.planLaws) : s.expireWaits.planLaws := by
  unfold State.expireWaits
  split
  · exact h
  · refine planLaws_grantScan (foldl_kept (fun u w hu => ?_) _ _ (planLaws_filterWaiting h _))
    exact (appendNotice_frame u _ _).leases.planLaws hu

/-! ### The body of a POST (R64, R65) -/

/-- The train fields of a POST (R172). -/
def RequestFrame.postTrain (f : RequestFrame) : TrainRec :=
  { width := f.span 9, period := f.span 12, remaining := if f.half 15 = 0 then none else some (f.half 15)
    pending := none, begun := false }

/-- What a POST's body is where its values are in range, kind by kind (R65, Table 4-5). -/
theorem postBody_cases {f : RequestFrame} {x : PostForm} {horizon : Nat} {b : OrderBody}
    (hb : f.postBody x horizon = some b) :
    (∃ l, x.kind = .step ∧ inRange 16 (f.at 1) = some l ∧ b = .step l x.action) ∨
    (∃ l, x.kind = .pulse ∧ inRange 16 (f.at 1) = some l ∧
      (1 ≤ (f.span 9).toNat ∧ (f.span 9).toNat ≤ horizon) ∧ b = .pulse l (f.span 9)) ∨
    (∃ l, x.kind = .train ∧ inRange 16 (f.at 1) = some l ∧
      (2 ≤ (f.span 12).toNat ∧ (f.span 12).toNat ≤ horizon ∧ (f.span 9).toNat ≤ (f.span 12).toNat) ∧
      b = .train l f.postTrain) ∨
    ∃ g, x.kind = .pattern ∧ inRange 4 (f.at 1) = some g ∧ f.patternMask ≠ 0 ∧
      b = .pattern g f.patternMask f.patternLevels := by
  unfold RequestFrame.postBody at hb
  split at hb
  · rename_i hk
    split at hb
    · rename_i l hl; cases hb; exact .inl ⟨l, hk, hl, rfl⟩
    · cases hb
  · rename_i hk
    split at hb
    · rename_i l hl
      split at hb
      · rename_i hv; cases hb; exact .inr (.inl ⟨l, hk, hl, hv, rfl⟩)
      · cases hb
    · cases hb
  · rename_i hk
    split at hb
    · rename_i l hl
      split at hb
      · rename_i hv; injection hb with hb; exact .inr (.inr (.inl ⟨l, hk, hl, hv, hb.symm⟩))
      · cases hb
    · cases hb
  · rename_i hk
    split at hb
    · rename_i g hg
      split at hb
      · cases hb
      · rename_i hm; cases hb; exact .inr (.inr (.inr ⟨g, hk, hg, hm, rfl⟩))
    · cases hb

/-- The spans of a new order are in range; it waits for no trailing edge (R65). -/
theorem inRange_postBody {f : RequestFrame} {x : PostForm} {horizon : Nat} {b : OrderBody}
    (hb : f.postBody x horizon = some b) {o : Order} (ho : o.body = b) (hs : ∀ e, o.state ≠ .scheduled e .trailing) :
    o.inRange horizon := by
  unfold Order.inRange
  rw [ho]
  rcases postBody_cases hb with ⟨l, -, -, rfl⟩ | ⟨l, -, -, hv, rfl⟩ | ⟨l, -, -, ⟨h1, h2, h3⟩, rfl⟩ | ⟨g, -, -, -, rfl⟩
  · trivial
  · exact hv
  · exact ⟨h1, h2, h3, nofun, fun e he => absurd he (hs e)⟩
  · trivial

/-- What the checks of a POST that passes have read (R64, R65). -/
theorem body_of_postChecks {p : StationNo} {f : RequestFrame} {s : State} {x : PostForm} {b : OrderBody}
    {tr : Option CaptureTrigger} (hc : postChecks p f s = .ok (x, b, tr)) :
    f.postForm = some x ∧ f.postBody x s.horizon = some b ∧ f.postTrigger x = some tr := by
  unfold postChecks at hc
  repeat' split at hc
  all_goals cases hc
  exact ⟨by assumption, by assumption, by assumption⟩

/-- An order that becomes SCHEDULED waits for no trailing edge (R67). -/
theorem firstPhase_ne_trailing (b : OrderBody) (due e : Time) :
    OrderState.scheduled due b.firstPhase ≠ .scheduled e .trailing := by
  cases b <;> exact nofun

/-- The lowest free slot is free (R55). -/
theorem order_of_lowestFree {s : State} {i : SlotNo} (hi : s.lowestFree = some i) : s.order i = none := by
  simpa using List.find?_some hi

theorem samePlan_nextPost (s : State) : SamePlan s s.nextPost := .of_eq rfl rfl rfl rfl rfl

/-! ### The owners -/

section Owners

variable {s : State} (h : s.planLaws) (p : StationNo) (f : RequestFrame)
include h

theorem planLaws_bindOwner : (bindOwner p f s).state.planLaws := by
  unfold bindOwner
  split
  · exact h
  · split
    · exact h
    · exact planLaws_congr h rfl rfl rfl rfl rfl

theorem planLaws_portStatusOwner : (portStatusOwner p f s).state.planLaws := by
  unfold portStatusOwner
  split
  · dsimp only
    split
    · exact (setPort_frame s p _).leases.planLaws h
    · exact h
  · exact h

/-- A TIME_START finds the timebase HALTED, so that no order exists (R5, R12). -/
theorem none_of_timeStart (hs : s.tb.state = .halted) :
    (∀ i, s.order i = none) ∧ ∀ k, (s.pair k).state.inGap = false :=
  h.2.1 ((not_running_iff s).mpr (by rw [hs]; decide))

theorem planLaws_timeStartImmediateOwner : (timeStartImmediateOwner p f s).state.planLaws := by
  unfold timeStartImmediateOwner
  split
  · exact h
  · rename_i hn
    obtain ⟨hs, hd, hl, hu⟩ := timeStartRefusal_eq_none hn
    have ⟨_, _, _, _, _, harm⟩ := h
    refine (appendNotices_frame _ _ _).leases.planLaws ?_
    exact planLaws_setTb h hd ⟨hl, hu⟩ (fun _ => harm (by rw [hs]; decide)) (fun hr => absurd rfl hr)
      (.inr (none_of_timeStart h hs).1)

theorem planLaws_timeStartOnMarkOwner : (timeStartOnMarkOwner p f s).state.planLaws := by
  unfold timeStartOnMarkOwner
  split
  · exact h
  · rename_i hn
    obtain ⟨hs, hd, hl, hu⟩ := timeStartRefusal_eq_none hn
    exact planLaws_setTb h hd ⟨hl, hu⟩ (fun ha => absurd rfl ha) (fun _ => none_of_timeStart h hs)
      (.inr (none_of_timeStart h hs).1)

theorem planLaws_timeStopOwner : (timeStopOwner p f s).state.planLaws := by
  unfold timeStopOwner
  split
  · exact h
  · rename_i hn
    simp only [Bool.not_eq_true, Bool.or_eq_false_iff, anyOrder_eq_false, anyGap_eq_false] at hn
    have ⟨_, _, hd, hl, hu, harm⟩ := h
    unfold State.halt
    split
    · rename_i hs
      refine (calm_stopSampling _).planLaws (.of_eq rfl rfl rfl rfl rfl) ?_
      exact planLaws_setTb h hd ⟨hl, hu⟩ (fun _ => harm (by rw [hs]; decide)) (fun _ => hn) (.inr hn.1)
    · exact planLaws_setTb h hd ⟨hl, hu⟩ (fun _ => ⟨rfl, rfl⟩) (fun _ => hn) (.inr hn.1)
    · exact h

theorem planLaws_claimOwner : (claimOwner p f s).state.planLaws := by
  unfold claimOwner
  split
  · exact h
  · split
    · exact (calm_grant _ _).planLaws (grant_frame _ _).samePlan (planLaws_congr h rfl rfl rfl rfl rfl)
    · split
      · exact h
      · split
        · exact h
        · exact planLaws_congr h rfl rfl rfl rfl rfl

theorem planLaws_releaseOwner : (releaseOwner p f s).state.planLaws := by
  unfold releaseOwner
  split
  · exact h
  · split
    · exact planLaws_grantScan ((calm_giveUp _ _ _).planLaws (giveUp_frame _ _ _).samePlan
        (planLaws_removeOrders h _))
    · split
      · exact planLaws_grantScan (planLaws_filterWaiting h _)
      · exact h

theorem planLaws_shapeOwner : (shapeOwner p f s).state.planLaws := by
  have hshape : ∀ m x, NoNewWork s (s.shape m x) := fun m x =>
    (foldl_frame NoNewWork.refl NoNewWork.trans (f := State.shapeLine x)
      (fun u l => noNewWork_setLine u l _) _ s).trans (Calm.foldl calm_toSafe _ _).toNoNewWork
  unfold shapeOwner
  split
  · exact h
  · split
    · exact h
    · split
      · exact h
      · split
        · exact h
        · exact (hshape _ _).planLaws h ((shape_frame s _ _).samePlan.plan h.1)

omit h in
theorem samePlan_bindPair (k : PairNo) (gap : Byte) : SamePlan s (s.bindPair k gap) := by
  unfold State.bindPair
  dsimp only
  split
  · exact .of_eq rfl rfl rfl rfl rfl
  · split <;> exact .of_eq rfl rfl rfl rfl rfl

theorem planLaws_pairBindOwner : (pairBindOwner p f s).state.planLaws := by
  unfold pairBindOwner; split
  · exact h
  · exact (calm_bindPair s _ _).planLaws (samePlan_bindPair _ _) h

theorem planLaws_pairUnbindOwner : (pairUnbindOwner p f s).state.planLaws := by
  unfold pairUnbindOwner; split
  · exact h
  · exact (calm_setPairState s _ _ fun _ => rfl).planLaws (setPairState_frame s _ _).samePlan h

theorem planLaws_guardMapOwner : (guardMapOwner p f s).state.planLaws := by
  unfold guardMapOwner
  split
  · exact h
  · rename_i g m _
    have hm : (s.setGroup g { s.group g with map := m }).planLaws := planLaws_congr h rfl rfl rfl rfl rfl
    unfold State.remap
    dsimp only
    split
    · split
      · exact (tripNotices_frame _ g _).leases.planLaws ((calm_tripGroup _ g).planLaws (tripGroup_frame _ g).samePlan hm)
      · exact hm
    · exact hm

theorem planLaws_rearmOwner : (rearmOwner p f s).state.planLaws := by
  unfold rearmOwner
  split
  · exact h
  · rename_i g _
    have hm : (s.setGroup g { s.group g with state := .normal }).planLaws := planLaws_congr h rfl rfl rfl rfl rfl
    split
    · exact h
    · split
      · exact h
      · split
        · exact h
        · exact (appendNotices_frame _ _ _).leases.planLaws hm

theorem planLaws_cancelNowOwner : (cancelNowOwner p f s).state.planLaws := by
  unfold cancelNowOwner; split
  · exact h
  · exact planLaws_cancelOrder h _

theorem planLaws_cancelAtEndOwner : (cancelAtEndOwner p f s).state.planLaws := by
  unfold cancelAtEndOwner; split
  · exact h
  · rename_i i o hc
    have ho := order_of_cancelChecks hc
    split
    · exact planLaws_setOrder h ho rfl rfl rfl (h.1.spans i o ho)
    · exact planLaws_cancelOrder h i

omit h in
/-- The values of a REVISE that passes its checks are in range (R93). -/
theorem span_of_reviseChecks {p : StationNo} {f : RequestFrame} {i : SlotNo} {o : Order} {l : LineNo} {x : TrainRec}
    (hc : reviseChecks p f s = .ok (i, o, l, x)) :
    2 ≤ (f.span 5).toNat ∧ (f.span 5).toNat ≤ s.horizon ∧ (f.span 2).toNat ≤ (f.span 5).toNat := by
  unfold reviseChecks at hc
  repeat' split at hc
  all_goals cases hc
  assumption

theorem planLaws_reviseOwner : (reviseOwner p f s).state.planLaws := by
  unfold reviseOwner; split
  · exact h
  · rename_i i o l x hc
    have ho := order_of_reviseChecks hc
    have hb := body_of_reviseChecks hc
    have hv := span_of_reviseChecks hc
    have hr := h.1.spans i o ho
    unfold Order.inRange at hr
    rw [hb] at hr
    obtain ⟨h1, h2, h3, -, h5⟩ := hr
    split
    · refine planLaws_setOrder h ho rfl rfl rfl ⟨h1, h2, h3, fun r he => ?_, h5⟩
      cases he; exact hv
    · rename_i hs
      refine planLaws_setOrder h ho rfl rfl rfl ⟨hv.1, hv.2.1, hv.2.2, nofun, fun e he => ?_⟩
      rw [hs] at he; cases he

theorem planLaws_flushOwner : (flushOwner p f s).state.planLaws := by
  unfold flushOwner
  split
  · exact h
  · split
    · exact h
    · exact foldl_kept (P := State.planLaws) (f := State.cancelOrder) (fun _ i hu => planLaws_cancelOrder hu i) _ _ h

theorem planLaws_subscribeOwner : (subscribeOwner p f s).state.planLaws := by
  have hset : ∀ c r, (s.setInput c r).planLaws := fun c r => planLaws_congr h rfl rfl rfl rfl rfl
  unfold subscribeOwner
  split
  · exact h
  · split
    · split
      · exact hset _ _
      · split
        · exact hset _ _
        · exact h
    · exact hset _ _

theorem planLaws_unsubscribeOwner : (unsubscribeOwner p f s).state.planLaws := by
  unfold unsubscribeOwner
  split
  · exact h
  · split
    · exact h
    · exact planLaws_congr (planLaws_removeOrders h _) rfl rfl rfl rfl rfl

theorem planLaws_readCapturesOwner : (readCapturesOwner p f s).state.planLaws := by
  unfold readCapturesOwner; split
  · exact planLaws_congr h rfl rfl rfl rfl rfl
  · exact h

/-! POST -/

/-- A free slot stands in no list, and its removal leaves the plan of the others. -/
theorem plan_of_free {i : SlotNo} (hi : s.order i = none) : s.unarmed i ∧ Plan 0 0 [] (s.removeOrder i) :=
  ⟨(h.1.toArmedLaw.unarmed fun o ho => by rw [hi] at ho; cases ho).1, h.1.removeOrder i⟩

omit h in
/-- An order that joins the tail of the armed list of its input, from a free slot (R63, R70). -/
theorem Plan.arm {m : Nat} {c : InputNo} (h : Plan m c [] s) {i : SlotNo} (hi : s.order i = none) {o : Order}
    {tr : CaptureTrigger} (hs : o.state = .armed) (ht : o.trigger = some tr) (hr : o.inRange s.horizon) :
    Plan m c [] ((s.setOrder i o).setArmed tr.input (s.armedOn tr.input ++ [i])) := by
  have hu := (h.toArmedLaw.unarmed fun a ha => by rw [hi] at ha; cases ha).1
  have hne : ∀ {j a}, s.order j = some a → j ≠ i := fun ha e => by rw [e, hi] at ha; cases ha
  have horder : ∀ j, ((s.setOrder i o).setArmed tr.input (s.armedOn tr.input ++ [i])).order j =
      if j = i then some o else s.order j := fun j => setOrder_order s i j o
  have hback : ∀ {j a e ph}, (if j = i then some o else s.order j) = some a → a.state = .scheduled e ph →
      s.order j = some a := fun {j a e ph} ha hsa => by
    split at ha
    · cases ha; rw [hs] at hsa; cases hsa
    · exact ha
  have hon : ∀ d, ((s.setOrder i o).setArmed tr.input (s.armedOn tr.input ++ [i])).armedOn d =
      if d = tr.input then s.armedOn d ++ [i] else s.armedOn d := fun d => by
    rw [State.setArmed_armedOn]; split
    · rename_i e; rw [e]
    · rfl
  refine { nodup := h.nodup, mem := fun j => ?_, sorted := ?_, near := fun j a e ph ha hsa => ?_
           spans := fun j a ha => ?_, once := fun d => ?_, holds := fun d j => ?_, triggered := fun j a ha hsa => ?_ }
  · show j ∈ s.schedule ↔ _
    rw [h.mem, horder]
    by_cases hj : j = i <;> simp [hj, hi, hs]
  · refine h.sorted.imp_of_mem fun {j k} hj hk hjk a b ha hb => ?_
    obtain ⟨a', _, _, ha', -⟩ := (h.mem j).mp hj
    obtain ⟨b', _, _, hb', -⟩ := (h.mem k).mp hk
    rw [horder, if_neg (hne ha')] at ha
    rw [horder, if_neg (hne hb')] at hb
    exact hjk a b ha hb
  · rw [horder] at ha
    exact h.near j a e ph (hback ha hsa) hsa
  · rw [horder] at ha
    split at ha
    · cases ha; exact hr
    · exact h.spans j a ha
  · have hd := h.once d
    rw [armedWith_nil] at hd ⊢
    rw [hon]
    split
    · rw [List.nodup_append]
      exact ⟨hd, by simp, fun a ha b hb => by rw [List.mem_singleton.mp hb]; exact fun e => hu d (e ▸ ha)⟩
    · exact hd
  · have hd := h.holds d j
    rw [armedWith_nil] at hd ⊢
    rw [hon, horder]
    by_cases hj : j = i
    · subst hj
      by_cases hdt : d = tr.input
      · simp [hdt, hs, ht]
      · simp [hdt, hu d, hs, ht, Ne.symm hdt]
    · by_cases hdt : d = tr.input
      · rw [if_pos hdt, if_neg hj, ← hd]; simp [hj]
      · rw [if_neg hdt, if_neg hj, hd]
  · rw [horder] at ha
    split at ha
    · cases ha; rw [ht]; exact nofun
    · exact h.triggered j a ha hsa

omit h in
/-- An order that comes while the timebase is RUNNING cannot break the law of the halted timebase (R12, R64). -/
theorem haltedLaw_of_running (hr : s.running = true) : s.haltedLaw := fun hn => by rw [hr] at hn; cases hn

variable {x : PostForm} {b : OrderBody} (hr : s.running = true) (hb : f.postBody x s.horizon = some b)
include hr hb

theorem planLaws_postFuture {due : Time} (hd : s.classify due = .future) :
    (postFuture p f s x b due).state.planLaws := by
  obtain ⟨h1, h2⟩ := classify_future hd
  unfold postFuture
  split
  · exact h
  · rename_i i hi
    obtain ⟨hu, hoff⟩ := plan_of_free h (order_of_lowestFree hi)
    have k := samePlan_nextPost s
    refine ⟨((k.removeOrder i).plan hoff).placeOrder hu rfl (Nat.zero_le _) h2 ?_, haltedLaw_of_running hr, h.2.2⟩
    exact inRange_postBody hb rfl (firstPhase_ne_trailing b due)

theorem planLaws_postLateFire : (postLateFire p f s x b).state.planLaws := by
  have hfired := (calm_fireDue s).toNoNewWork.planLaws h (h.1.fireDue (Nat.zero_le 1))
  have htb := (fireDue_frame s).tb
  unfold postLateFire
  split
  · exact h
  · rename_i i hi
    obtain ⟨hu, hoff⟩ := plan_of_free hfired (order_of_lowestFree hi)
    have k := (samePlan_nextPost s.fireDue).removeOrder i
    have hhor : ∀ a, (s.fireDue.nextPost.setOrder i a).horizon = s.horizon := fun a => by
      simp only [State.horizon, State.nextPost, State.setOrder, State.setSlot_tb, htb]
    have hend : ∀ a, ((s.fireDue.nextPost.setOrder i a).applyAtOnce .atPost i a).tb = s.tb := fun a =>
      (fireEdge_frame _ .atPost i a).tb.trans htb
    refine ⟨EdgeEnd.plan (edgeEnd_fireEdge .atPost i ?_) ?_ hu (Nat.zero_le 1), haltedLaw_of_running ?_, ?_⟩
    · rw [hhor]; exact inRange_postBody hb rfl (firstPhase_ne_trailing b _)
    · exact (k.trans (samePlan_removeOrder_setOrder _ i _)).plan hoff
    · unfold State.running; rwa [hend]
    · unfold State.timebaseLaw; rw [hend]; exact h.2.2

theorem planLaws_postArmed {tr : CaptureTrigger} : (postArmed p f s x b tr).state.planLaws := by
  unfold postArmed
  split
  · exact h
  · split
    · exact h
    · rename_i i hi
      refine ⟨Plan.arm ((samePlan_nextPost s).plan h.1) (order_of_lowestFree hi) rfl rfl ?_,
        haltedLaw_of_running hr, h.2.2⟩
      exact inRange_postBody hb rfl fun e he => by cases he

omit hr hb in
theorem planLaws_postOwner : (postOwner p f s).state.planLaws := by
  unfold postOwner
  split
  · exact h
  · rename_i hc
    exact planLaws_postArmed h p f (postChecks_ok hc).1 (body_of_postChecks hc).2.1
  · rename_i hc
    have hr := (postChecks_ok hc).1
    have hb := (body_of_postChecks hc).2.1
    split
    · rename_i hd; exact planLaws_postFuture h p f hr hb hd
    · exact h
    · exact h
    · exact planLaws_postLateFire h p f hr hb

end Owners

end Sys2Proof.Machine
end

section
/-! The events of the part, one by one (`EventAct`), and the law of the schedule kept by each of them and so by every
step. -/

namespace Sys2Proof.Machine

/-! ### The work of an event -/

/-- What a command other than a request row does, on the state that the takings before it leave: the work of one event
of the part. -/
inductive EventAct (s : State) : State → Prop
  | port {t : State} : OnlyPorts s t → EventAct s t
  | tick : EventAct s s.expireOwed.tick
  | fireDue : EventAct s s.fireDue
  | completeGap (k : PairNo) : EventAct s (s.completeGap k)
  | markEdge : EventAct s s.markEdge
  | armExpiry : EventAct s s.armExpiry
  | expireWaits : EventAct s s.expireWaits
  | activate (i : GuardInput) : EventAct s (s.activate i)
  | setGuard (i : GuardInput) (a : Bool) : EventAct s (s.setGuard i a)
  | sample (c : InputNo) (level : Level) : EventAct s (s.sample c level)

theorem EventAct.ite {s a b : State} {q : Prop} [Decidable q] (ha : EventAct s a) (hb : EventAct s b) :
    EventAct s (if q then a else b) := by split <;> assumption

theorem EventAct.nothing (s : State) : EventAct s s := .port (OnlyPorts.refl s)

/-- What a command that is no request row does. -/
inductive EventStep (s : State) : State → Prop
  | nothing : EventStep s s
  | event {t : State} : EventAct s.takeDue t → EventStep s t
  | boundary : EventStep s s.meetBoundary
  | expiry (n : StationNo) : EventStep s (s.lapse n)
  | lineBreak (p : StationNo) (r : PortRec) : EventStep s ((s.breakSession p).setPort p r)
  | resetBegin : EventStep s s.inPowerOnReset
  | resetEnd (a b x y : Level) : EventStep s
      { State.powerOn a b x y with pending := s.pending, freeChoices := s.freeChoices }

theorem working_eventStep {s t u : State} (h : working s u = .next t) (hu : EventStep s u) : EventStep s t := by
  cases h
  split
  · exact .nothing
  · exact hu

theorem acting_eventStep {s t : State} {f : State → State} (h : acting s f = .next t)
    (hf : ∀ u, EventAct u (f u)) : EventStep s t := working_eventStep h (.event (hf _))

theorem exec_eventStep {c : Instr} {s t : State} (hc : requestRow c = none) (h : exec c s = .next t) :
    EventStep s t := by
  have port : ∀ (u : State) p r, EventAct u (u.setPort p r) := fun u p r => .port (setPort_frame u p r)
  cases c with
  | frameComplete p data =>
    simp only [Machine.exec, execFrameComplete] at h
    exact acting_eventStep h fun u => .ite (port u p _) (.nothing u)
  | frameEndEarly p data marker stop =>
    simp only [Machine.exec, execFrameEndEarly] at h
    exact acting_eventStep h fun u => .ite (port u p _) (.nothing u)
  | characterReceived p data marker stop =>
    simp only [Machine.exec, execCharacterReceived] at h
    exact acting_eventStep h fun u => .ite (.nothing u) (port u p _)
  | lineBreak p =>
    simp only [Machine.exec, execLineBreak] at h
    refine working_eventStep h ?_
    split
    · exact .nothing
    · exact .lineBreak p _
  | breakEnd p =>
    simp only [Machine.exec, execBreakEnd] at h
    exact acting_eventStep h fun u => .ite (port u p _) (.nothing u)
  | transmitEnd p =>
    simp only [Machine.exec, execTransmitEnd] at h
    exact acting_eventStep h fun u => .ite (.nothing u) (.port (endTransmission_frame u p))
  | tick =>
    simp only [Machine.exec, execTick] at h
    exact acting_eventStep h fun _ => .tick
  | firing =>
    simp only [Machine.exec, execFiring] at h
    exact acting_eventStep h fun u => .ite .fireDue (.nothing u)
  | gapCompletion k =>
    simp only [Machine.exec, execGapCompletion] at h
    exact acting_eventStep h fun u => .ite (.completeGap k) (.nothing u)
  | markRisingEdge =>
    simp only [Machine.exec, execMarkRisingEdge] at h
    exact acting_eventStep h fun _ => .markEdge
  | armTimerExpiry =>
    simp only [Machine.exec, execArmTimerExpiry] at h
    exact acting_eventStep h fun _ => .armExpiry
  | leaseBoundary =>
    simp only [Machine.exec, execLeaseBoundary] at h
    exact working_eventStep h .boundary
  | leaseExpiry n =>
    simp only [Machine.exec, execLeaseExpiry] at h
    exact working_eventStep h (.expiry n)
  | waitExpiry =>
    simp only [Machine.exec, execWaitExpiry] at h
    exact acting_eventStep h fun _ => .expireWaits
  | guardActivation i =>
    simp only [Machine.exec, execGuardActivation] at h
    exact acting_eventStep h fun u => .ite (.nothing u) (.activate i)
  | guardDeactivation i =>
    simp only [Machine.exec, execGuardDeactivation] at h
    exact acting_eventStep h fun _ => .setGuard i false
  | captureEdge i level =>
    simp only [Machine.exec, execCaptureEdge] at h
    exact acting_eventStep h fun _ => .sample i level
  | filterClose i level =>
    simp only [Machine.exec, execFilterClose] at h
    exact acting_eventStep h fun u => .ite (.sample i level) (.nothing u)
  | resetBegin =>
    simp only [Machine.exec, execResetBegin] at h
    cases h; exact .resetBegin
  | powerOnResetEnd a b x y =>
    simp only [Machine.exec, execPowerOnResetEnd] at h
    cases h
    split
    · exact .resetEnd a b x y
    · exact .nothing
  | _ => cases hc

/-! ### Takings -/

theorem planLaws_keptByTakings : KeptByTakings State.planLaws where
  leases a h := a.planLaws h
  lapse s n h := planLaws_lapse s n h
  owner {c p row f s} _ _ _ h := by
    cases c with
    | bind => exact planLaws_bindOwner h p f
    | unbind => exact planLaws_teardown h p false
    | portStatus => exact planLaws_portStatusOwner h p f
    | timeStartImmediate => exact planLaws_timeStartImmediateOwner h p f
    | timeStartOnMark => exact planLaws_timeStartOnMarkOwner h p f
    | timeStop => exact planLaws_timeStopOwner h p f
    | claim => exact planLaws_claimOwner h p f
    | release => exact planLaws_releaseOwner h p f
    | shape => exact planLaws_shapeOwner h p f
    | lineRead => exact (calm_lineReadOwner p f s).planLaws (by unfold lineReadOwner; split <;> exact .refl s) h
    | pairBind => exact planLaws_pairBindOwner h p f
    | pairUnbind => exact planLaws_pairUnbindOwner h p f
    | post => exact planLaws_postOwner h p f
    | cancelNow => exact planLaws_cancelNowOwner h p f
    | cancelAtEnd => exact planLaws_cancelAtEndOwner h p f
    | revise => exact planLaws_reviseOwner h p f
    | flush => exact planLaws_flushOwner h p f
    | orderRead => exact (calm_orderReadOwner p f s).planLaws (by unfold orderReadOwner; split <;> exact .refl s) h
    | guardMap => exact planLaws_guardMapOwner h p f
    | rearm => exact planLaws_rearmOwner h p f
    | subscribe => exact planLaws_subscribeOwner h p f
    | unsubscribe => exact planLaws_unsubscribeOwner h p f
    | readCaptures => exact planLaws_readCapturesOwner h p f
    | _ => exact h

/-! ### Events -/

section Events

variable {s : State} (h : s.planLaws)
include h

theorem planLaws_fireDue : s.fireDue.planLaws :=
  (calm_fireDue s).toNoNewWork.planLaws h (h.1.fireDue (Nat.zero_le 1))

theorem planLaws_sample (c : InputNo) (level : Level) : (s.sample c level).planLaws :=
  (calm_sample s c level).toNoNewWork.planLaws h (h.1.sample (Nat.zero_le 1) h.2.2.2.1 c level)

/-- The advance of T, behind the work due at it (R1). -/
theorem planLaws_tick : s.tick.planLaws := by
  unfold State.tick
  split
  · rename_i hr
    obtain ⟨hplan, -, htime⟩ := h
    have htb : s.settle.tb = s.tb := (settle_frame s).tb
    refine ⟨(hplan.settle htime.2.1).advance, haltedLaw_of_running ?_, ?_⟩
    · simpa [State.running, State.advance, htb] using hr
    · simpa [State.timebaseLaw, State.advance, htb] using htime
  · exact h

theorem planLaws_markEdge : s.markEdge.planLaws := by
  unfold State.markEdge; split
  · refine (appendNotices_frame _ _ _).leases.planLaws ?_
    exact planLaws_setTb_same h rfl rfl rfl (fun _ => ⟨rfl, rfl⟩) (.inl rfl)
  · exact h

theorem planLaws_armExpiry : s.armExpiry.planLaws := by
  unfold State.armExpiry
  split
  · rename_i ha
    have ht : ({ s with tb := { s.tb with state := .halted, armTimer := none, arming := none } } : State).planLaws :=
      planLaws_setTb_same h rfl rfl rfl (fun _ => ⟨rfl, rfl⟩) (.inr (by rw [ha.1]; decide))
    dsimp only
    split
    · exact (appendNotice_frame _ _ _).leases.planLaws ht
    · exact ht
  · exact h

theorem planLaws_expireOwed : s.expireOwed.planLaws := by
  unfold State.expireOwed
  exact foldl_kept (P := State.planLaws) planLaws_lapse _ _ (planLaws_expireWaits _ (planLaws_armExpiry h))

theorem planLaws_leaseUnitEnds : s.leaseUnitEnds.planLaws := planLaws_congr h rfl rfl rfl rfl rfl

theorem planLaws_setPending (l : List Instr) : (s.setPending l).planLaws := planLaws_congr h rfl rfl rfl rfl rfl

theorem planLaws_setGuard (i : GuardInput) (a : Bool) : (s.setGuard i a).planLaws := by
  cases i <;> exact planLaws_congr h rfl rfl rfl rfl rfl

theorem planLaws_activate (i : GuardInput) : (s.activate i).planLaws := by
  have h1 := foldl_kept (P := State.planLaws) (fun u g hu => (calm_tripGroup u g).planLaws (tripGroup_frame u g).samePlan hu)
    (s.tripsOn i) _ (planLaws_setGuard h i true)
  have h2 := foldl_kept (P := State.planLaws) (fun u g hu => (tripNotices_frame u g i).leases.planLaws hu)
    (s.tripOrder (s.tripsOn i)) _ h1
  exact planLaws_congr h2 rfl rfl rfl rfl rfl

theorem planLaws_eventAct {t : State} (a : EventAct s t) : t.planLaws := by
  cases a with
  | port a => exact a.leases.planLaws h
  | tick => exact planLaws_tick (planLaws_expireOwed h)
  | fireDue => exact planLaws_fireDue h
  | completeGap k => exact (calm_completeGap s k).planLaws (completeGap_frame s k).samePlan h
  | markEdge => exact planLaws_markEdge h
  | armExpiry => exact planLaws_armExpiry h
  | expireWaits => exact planLaws_expireWaits s h
  | activate i => exact planLaws_activate h i
  | setGuard i a => exact planLaws_setGuard h i a
  | sample c level => exact planLaws_sample h c level

theorem planLaws_armUnitEnds : s.armUnitEnds.planLaws := by
  have ⟨_, _, _, _, _, harm⟩ := h
  exact planLaws_setTb_same h rfl rfl rfl (fun hs => ⟨(harm hs).1, by simp [(harm hs).2]⟩) (em (s.tb.state = .running))

theorem planLaws_meetBoundary : s.meetBoundary.planLaws := by
  have h1 := planLaws_keptByTakings.serveDue (planLaws_leaseUnitEnds (planLaws_expireOwed h))
  unfold State.meetBoundary
  dsimp only
  split
  · exact planLaws_armUnitEnds h1
  · exact h1

theorem planLaws_breakSession (p : StationNo) : (s.breakSession p).planLaws := by
  unfold State.breakSession
  split
  · exact (portTeardown_frame _ p false).leases.planLaws (planLaws_teardown h p false)
  · exact planLaws_congr h rfl rfl rfl rfl rfl
  · exact h

end Events

/-- The laws at the end of power-on reset, whatever the straps and the guards. -/
theorem powerOn_planLaws (a b x y : Level) : (State.powerOn a b x y).planLaws := by
  obtain ⟨-, -, htime, hhalted⟩ := powerOn_runLaws a b x y
  have k : SamePlan State.reset (State.powerOn a b x y) := .of_eq rfl rfl rfl rfl rfl
  exact ⟨k.plan ((scheduleLaw_iff _ 0).mp reset_scheduleLaw), hhalted, htime⟩

theorem planLaws_eventStep {s t : State} (h : s.planLaws) (e : EventStep s t) : t.planLaws := by
  cases e with
  | nothing => exact h
  | event a => exact planLaws_eventAct (planLaws_keptByTakings.takeDue h) a
  | boundary => exact planLaws_meetBoundary h
  | expiry n => exact planLaws_lapse s n h
  | lineBreak p r => exact (setPort_frame _ p r).leases.planLaws (planLaws_breakSession h p)
  | resetBegin => exact planLaws_congr (powerOn_planLaws .low .low .high .high) rfl rfl rfl rfl rfl
  | resetEnd a b x y => exact planLaws_congr (powerOn_planLaws a b x y) rfl rfl rfl rfl rfl

/-- Every command keeps the laws. -/
theorem planLaws_exec {c : Instr} {s t : State} (h : s.planLaws) (he : exec c s = .next t) : t.planLaws := by
  cases hc : requestRow c with
  | some x =>
    rw [exec_requestRow hc] at he
    cases he
    exact planLaws_keptByTakings.takeRow hc h
  | none => exact planLaws_eventStep h (exec_eventStep hc he)

/-- Settles O60: the law of the schedule and the laws of the timebase are kept together. -/
theorem stepKeepsSchedule : Obligations.StepKeepsSchedule := by
  intro s t hschedule hhalted htime h
  have hs : s.planLaws := (planLaws_iff s).mpr ⟨hschedule, hhalted, htime⟩
  refine ((planLaws_iff t).mp ?_).1
  unfold step at h
  split at h
  · cases h
    split
    · exact hs
    · exact (characterTime_frame _).leases.planLaws (planLaws_expireOwed (planLaws_keptByTakings.takeDue hs))
  · exact planLaws_exec (planLaws_setPending hs _) h

end Sys2Proof.Machine
end

section
/-! The firings of the orders due at T (R73 to R78), as FIRING makes them. -/

namespace Sys2Proof.Machine

/-! ### The order of the firings -/

theorem fireDue_of_dueSlots_nil {s : State} (h : s.dueSlots = []) : s.fireDue = s := by rw [State.fireDue, h]; rfl

/-- Settles O35: the first slot due is fired, and the firing goes on with the state that its edge leaves. -/
theorem firingGoesInListOrder : Obligations.FiringGoesInListOrder := by
  intro s hw hnodup hspans hh
  have hs : Fireable s := ⟨hnodup, hspans⟩
  refine ⟨?_, ?_, ?_⟩
  · rintro (hr | hnone)
    · simp [exec, execFiring, acting_atWork hw, hr]
    · simp [exec, execFiring, acting_atWork hw, fireDue_of_dueSlots_nil hnone]
  · intro hr
    exact ⟨exec_firing hw hr, (noneDue_iff _).mpr (dueSlots_fireDue hs)⟩
  · intro i rest o hr hdue ho
    obtain ⟨hrest, hfire⟩ := fireDue_eq_fireDue_fireEdge hs hdue ho
    have hc := calm_fireEdge ho .due rfl
    exact ⟨hrest, by rw [exec_firing hw hr, hfire, exec_firing (hc.atWork hw) (hc.running.trans hr)]⟩

/-! ### One order due -/

section OneDue

variable {s : State} {i : SlotNo} {o : Order} (h : s.onlyDue i o)
include h

theorem dueSlots_of_onlyDue : s.dueSlots = [i] := by
  obtain ⟨-, -, -, hdue⟩ := h
  rw [← hdue, State.dueSlots]
  refine List.filter_congr fun j _ => ?_
  unfold State.orderDue State.orderIs
  cases s.order j with
  | none => rfl
  | some a => cases a.state <;> rfl

/-- FIRING makes the edge of the one order due. -/
theorem exec_firing_onlyDue : exec .firing s = .next (s.fireEdge .due i o) := by
  have hdue := dueSlots_of_onlyDue h
  obtain ⟨hw, hr, ho, -⟩ := h
  rw [exec_firing hw hr, State.fireDue, hdue, List.foldl_cons, List.foldl_nil,
    fireDueSlot_of_due ho (head_of_dueSlots hdue).2]

end OneDue

theorem OnlyLines.removeOrder_tb {s t : State} (a : OnlyLines s t) (i : SlotNo) : (t.removeOrder i).tb = s.tb :=
  a.tb

theorem OnlyLines.placeOrder_tb {s t : State} (a : OnlyLines s t) (i : SlotNo) (o : Order) :
    (t.placeOrder i o).tb = s.tb := a.tb

/-- Settles O36: the command, the removal and the notice, in this order. -/
theorem firingStepOrPattern : Obligations.FiringStepOrPattern := by
  intro s i o h hg handle
  refine ⟨?_, ?_⟩
  · intro l a hb c
    have hn : s.groupNormal (groupOf l) = true := by simpa [State.groupNormal, OrderBody.group, hb] using hg
    rw [exec_firing_onlyDue h, State.fireEdge, hb]
    dsimp only
    rw [State.fireStep, if_pos hn, fired_eq_toldFired _ (by decide),
      (edgeCommand_frame s .due l a.command).removeOrder_tb]
    cases a <;> rfl
  · intro g m levels hb v
    have hn : s.groupNormal g = true := by simpa [State.groupNormal, OrderBody.group, hb] using hg
    rw [exec_firing_onlyDue h, State.fireEdge, hb]
    dsimp only
    rw [State.firePattern, if_pos hn, fired_eq_toldFired _ (by decide),
      (patternCommands_frame s .due g m levels).removeOrder_tb]
    rfl

/-- Settles O37: what each edge of the order does where its group is NORMAL. -/
theorem firingPulse : Obligations.FiringPulse := by
  intro s i o l w e h hg hb
  have hn : s.groupNormal (groupOf l) = true := by simpa [State.groupNormal] using hg
  intro handle
  refine ⟨?_, ?_⟩
  · intro hs
    rw [exec_firing_onlyDue h, State.fireEdge, hb, hs]
    dsimp only
    rw [State.firePulseLeading, if_pos hn, fired_eq_toldFired _ (by decide),
      (edgeCommand_frame s .due l .assert).placeOrder_tb, hb]
    rfl
  · intro hs
    rw [exec_firing_onlyDue h, State.fireEdge, hb, hs]
    dsimp only
    rw [State.firePulseTrailing, if_pos hn, ended_eq_toldEnded,
      (edgeCommand_frame s .due l .deassert).removeOrder_tb]
    rfl

end Sys2Proof.Machine
end

section
/-! Placing and removal of an order (R57, R62), and ORDER_READ (R79). -/

namespace Sys2Proof.Machine

/-! ### Placing and removal -/

/-- A place in the schedule list reads the orders that stand in it, T and the post sequence, and nothing else. -/
theorem State.placed_congr {s t : State} {i : SlotNo} {o : Order} {old new : List SlotNo} (h : s.placed i o old new)
    (ho : ∀ j ∈ old, t.order j = s.order j) (ht : t.tb.t = s.tb.t) (hq : t.postSeq = s.postSeq) :
    t.placed i o old new := by
  have ha : ∀ b, t.ahead o b ↔ s.ahead o b := fun b => by simp only [State.ahead, ht, hq]
  obtain ⟨before, after, rfl, hnew, hbefore, hafter⟩ := h
  refine ⟨before, after, rfl, hnew, fun j hj b hb => ?_, fun j rest b hj hb => ?_⟩
  · rw [ha]
    exact hbefore j hj b (by rwa [← ho j (List.mem_append_left _ hj)])
  · rw [ha]
    exact hafter j rest b hj (by rwa [← ho j (List.mem_append_right _ (by rw [hj]; exact List.mem_cons_self))])

theorem placeOrder_placed (s : State) (i : SlotNo) (o : Order) :
    (s.placeOrder i o).placed i o (s.schedule.filter (fun j => j != i)) (s.placeOrder i o).schedule := by
  refine State.placed_congr (insertPlace_placed s i o _) (fun j hj => ?_) rfl rfl
  rw [placeOrder_order, if_neg (by simpa using (List.mem_filter.mp hj).2)]

/-- Settles O30. -/
theorem placingAndRemoval : Obligations.PlacingAndRemoval := by
  refine ⟨fun s i o => ⟨_, rfl, rfl, placeOrder_placed s i o⟩, fun s i => ?_⟩
  refine ⟨rfl, s.setSlot_slot_self i _, fun j hj => s.setSlot_slot_ne i _ hj, rfl, removeOrder_armedOn s i⟩

/-! ### ORDER_READ -/

/-- Byte 4 of an order entry as a number (Table 10-9). -/
theorem entryBits : ∀ (a : BitVec 3) (m : BitVec 4),
    (0#1 ++ a ++ m : Byte) = BitVec.ofNat 8 (16 * a.toNat + m.toNat) := by decide

/-- The state byte of an order entry as a number (Table 10-9). -/
theorem entryStateBits : ∀ (scheduled : Bool) (ph : Phase) (ending revision : Bool),
    (BitVec.ofBool scheduled ++ 0#1 ++ ph.bits ++ 0#2 ++ BitVec.ofBool ending ++ BitVec.ofBool revision : Byte) =
      BitVec.ofNat 8 ((if scheduled then 128 else 0) + 16 * ph.bits.toNat + (if ending then 2 else 0) +
        (if revision then 1 else 0)) := by
  intro scheduled ph
  cases ph <;> revert scheduled <;> decide

theorem orderEntries_dequeue_leased (s : State) (p : StationNo) (start : SlotNo) :
    ((s.dequeue p).leased p).orderEntries p start = s.orderEntries p start := rfl

theorem orderCount_dequeue_leased (s : State) (p : StationNo) :
    ((s.dequeue p).leased p).orderCount p = s.orderCount p := rfl

theorem quota_dequeue_leased (s : State) (p : StationNo) :
    (((s.dequeue p).leased p).station p).quota = (s.station p).quota := by
  simp [State.leased, State.dequeue]

/-- Settles O34: the request is admitted, its owner changes nothing, and each entry is read off its order. -/
theorem orderReadReports : Obligations.OrderReadReports := by
  intro p s f h entry
  have hentry : ∀ i o, s.order i = some o → s.orderEntry i o = entry i := fun i o ho => by
    have hkind : o.body.kind.byte = (match o.body with
        | .step _ _ => 0 | .pulse _ _ => 1 | .train _ _ => 2 | .pattern _ _ _ => 3) := by cases o.body <;> rfl
    have hinput : 16 * o.inputBits.toNat = (match o.state, o.trigger with
        | .armed, some c => 16 * c.input.val | _, _ => 0) := by
      unfold Order.inputBits
      cases o.state <;> cases o.trigger <;> simp [Nat.mod_eq_of_lt]
    have hmask : o.body.maskBits.toNat = (match o.body with | .pattern _ m _ => m.toNat | _ => 0) := by
      cases o.body <;> rfl
    have hcount : o.body.remainingCount = (match o.body with | .train _ x => x.remaining.getD 0 | _ => 0) := by
      cases o.body <;> rfl
    have hstate : (if o.isScheduled then 128 else 0) + 16 * o.phase.bits.toNat = (match o.state with
        | .armed => 0 | .scheduled _ .absent => 128 | .scheduled _ .leading => 128 + 16
        | .scheduled _ .trailing => 128 + 32) := by
      unfold Order.isScheduled Order.phase
      cases o.state with
      | armed => rfl
      | scheduled e ph => cases ph <;> rfl
    have hrevision : (if o.body.revisionPending then 1 else 0) = (match o.body with
        | .train _ x => if x.pending.isSome then 1 else 0 | _ => 0) := by cases o.body <;> rfl
    simp only [State.orderEntry, entryBits, entryStateBits, hkind, hinput, hmask, hcount, hstate, hrevision, entry, ho]
    rfl
  have hentries : ∀ start, s.orderEntries p start = (((List.finRange 128).filter (fun i =>
      s.orderIs (fun o => o.station == p) i && decide (start.val ≤ i.val))).take 3).flatMap entry := fun start => by
    rw [State.orderEntries, slotsWith_eq, List.filter_filter]
    simp only [Bool.and_comm]
    refine List.flatMap_congr fun i _ => ?_
    cases hi : s.order i with
    | none => simp only [entry, hi]
    | some o => exact hentry i o hi
  refine ⟨?_, ?_⟩
  · intro hb
    refine congrArg _ (take_admitted_refused (owner := orderReadOwner) h (by decide) (rowOf_of_request h.2.1) ?_)
    simp only [orderReadOwner, inRange_of_le hb]
  · intro hb
    refine congrArg _ (take_admitted_unchanged (owner := orderReadOwner) (outcome := .ok) h (by decide)
      (rowOf_of_request h.2.1) ?_)
    rw [orderReadOwner, inRange_of_toNat (k := ⟨(f.at 0).toNat, hb⟩) rfl]
    dsimp only
    rw [orderEntries_dequeue_leased, orderCount_dequeue_leased, quota_dequeue_leased, hentries]
    rfl

end Sys2Proof.Machine
end

section
/-! CANCEL: what NOW and AT_END do with a live order, and what refuses them (R92, R96 to R98). -/

namespace Sys2Proof.Machine

/-! ### The asserted part, and the orders that can end -/

/-- The order is in its asserted part, and `l` is its line (R92). -/
def Order.assertedOn (o : Order) (l : LineNo) : Prop :=
  (∃ e w, o.state = .scheduled e .trailing ∧ o.body = .pulse l w) ∨
    (∃ e x, o.state = .scheduled e .trailing ∧ o.body = .train l x) ∨
    ∃ e x, o.state = .scheduled e .leading ∧ o.body = .train l x ∧ x.begun = true ∧ x.width = x.period

theorem assertedOn_iff (o : Order) (l : LineNo) :
    o.assertedOn l ↔ o.assertedPart = true ∧ o.body.line = some l := by
  unfold Order.assertedOn Order.assertedPart
  cases hs : o.state with
  | armed => simp
  | scheduled e ph =>
    cases hb : o.body with
    | step m a => simp
    | pattern g m v => simp
    | pulse m w => cases ph <;> simp [OrderBody.line]
    | train m x => cases ph <;> simp [OrderBody.line, and_comm]

/-- An order in its asserted part has one line. -/
theorem assertedPart_eq_false {o : Order} (h : ∀ l, ¬o.assertedOn l) : o.assertedPart = false := by
  cases hl : o.body.line with
  | some l => exact Bool.eq_false_iff.mpr fun ha => h l ((assertedOn_iff o l).mpr ⟨ha, hl⟩)
  | none =>
    cases hb : o.body with
    | pattern g m v =>
      unfold Order.assertedPart
      rw [hb]
      cases o.state with
      | armed => rfl
      | scheduled e ph => cases ph <;> rfl
    | _ => rw [hb] at hl; cases hl

theorem canEnd_iff (o : Order) : o.canEnd = true ↔
    (∃ e ph l w, o.state = .scheduled e ph ∧ o.body = .pulse l w) ∨
      ∃ e ph l x, o.state = .scheduled e ph ∧ o.body = .train l x := by
  unfold Order.canEnd
  cases o.state <;> cases o.body <;> simp

theorem canEnd_of_assertedOn {o : Order} {l : LineNo} (h : o.assertedOn l) : o.canEnd = true := by
  rw [canEnd_iff]
  rcases h with ⟨e, w, hs, hb⟩ | ⟨e, x, hs, hb⟩ | ⟨e, x, hs, hb, -⟩
  · exact .inl ⟨e, _, l, w, hs, hb⟩
  · exact .inr ⟨e, _, l, x, hs, hb⟩
  · exact .inr ⟨e, _, l, x, hs, hb⟩

section CancelOrder

variable {s : State} {i : SlotNo} {o : Order} (ho : s.order i = some o)
include ho

theorem cancelOrder_of_assertedOn {l : LineNo} (h : o.assertedOn l) :
    s.cancelOrder i = (s.command l .deassert).removeOrder i := by
  obtain ⟨ha, hl⟩ := (assertedOn_iff o l).mp h
  simp only [State.cancelOrder, ho, ha, hl]

theorem cancelOrder_of_not_assertedOn (h : ∀ l, ¬o.assertedOn l) : s.cancelOrder i = s.removeOrder i := by
  simp only [State.cancelOrder, ho, assertedPart_eq_false h]

end CancelOrder

/-! ### The checks -/

section Checks

variable {p : StationNo} {s : State} {f : RequestFrame}

theorem cancelChecks_dequeue_leased (p : StationNo) (s : State) (f : RequestFrame) :
    cancelChecks p f ((s.dequeue p).leased p) = cancelChecks p f s := rfl

theorem cancelChecks_badValue (h : 128 ≤ (f.at 0).toNat ∨ (f.at 2 ≠ 0 ∧ f.at 2 ≠ 1)) :
    cancelChecks p f s = .error .badValue := by
  by_cases hi : 128 ≤ (f.at 0).toNat
  · simp only [cancelChecks, inRange_of_le hi]
  · rw [cancelChecks, inRange_of_toNat (n := 128) (k := ⟨(f.at 0).toNat, by omega⟩) rfl]
    exact if_pos (h.resolve_left hi)

variable {i : SlotNo} (hi : (f.at 0).toNat = i.val) (hm : f.at 2 = 0 ∨ f.at 2 = 1)
include hi hm

theorem cancelChecks_of_slot : cancelChecks p f s =
    (match s.liveOrder p i (f.at 1) with | none => .error .unknownOrder | some o => .ok (i, o)) := by
  rw [cancelChecks, inRange_of_toNat hi]
  refine (if_neg ?_).trans ?_
  · rintro ⟨h0, h1⟩
    exact hm.elim h0 h1
  · rfl

theorem cancelChecks_unknownOrder
    (h : ∀ o, s.order i = some o → ¬((s.slot i).generation = f.at 1 ∧ o.station = p)) :
    cancelChecks p f s = .error .unknownOrder := by
  rw [cancelChecks_of_slot hi hm, State.liveOrder]
  cases ho : s.order i with
  | none => rfl
  | some o => simp only [if_neg (h o ho)]

theorem cancelChecks_ok {o : Order} (ho : s.order i = some o) (hg : (s.slot i).generation = f.at 1)
    (hp : o.station = p) : cancelChecks p f s = .ok (i, o) := by
  rw [cancelChecks_of_slot hi hm, State.liveOrder, ho]
  simp only [if_pos (And.intro hg hp)]

end Checks

/-! ### The taking -/

section Cancel

variable {p : StationNo} {s : State} {f : RequestFrame} (h : s.admits p f .cancel)
include h

theorem exec_cancel_refused {c : Instr} {outcome : ReplyCode}
    (hc : (c = .cancelNow p ∧ f.at 2 ≠ 1) ∨ (c = .cancelAtEnd p ∧ f.at 2 ≠ 0))
    (hr : cancelChecks p f s = .error outcome) : exec c s = .next ((s.leased p).answered p f outcome []) := by
  rw [← cancelChecks_dequeue_leased] at hr
  rcases hc with ⟨rfl, hm⟩ | ⟨rfl, hm⟩
  · refine congrArg _ (take_admitted_refused (owner := cancelNowOwner) h (by decide)
      (rowOfEither_of_request h.2.1 hm) ?_)
    simp only [cancelNowOwner, hr]
  · refine congrArg _ (take_admitted_refused (owner := cancelAtEndOwner) h (by decide)
      (rowOfEither_of_request h.2.1 hm) ?_)
    simp only [cancelAtEndOwner, hr]

variable {i : SlotNo} {o : Order} (hc : cancelChecks p f s = .ok (i, o))
include hc

theorem exec_cancelNow (hm : f.at 2 = 0) :
    exec (.cancelNow p) s = .next ((((s.dequeue p).leased p).cancelOrder i).replied p f .ok (0 :: bytes32 s.tb.t)) := by
  rw [← cancelChecks_dequeue_leased] at hc
  refine congrArg _ (take_admitted_eq (owner := cancelNowOwner) h (by decide)
    (rowOfEither_of_request h.2.1 (by rw [hm]; decide)) ?_)
  simp only [cancelNowOwner, hc]
  rfl

theorem exec_cancelAtEnd (hm : f.at 2 = 1) :
    exec (.cancelAtEnd p) s = .next (if o.canEnd then
      (((s.dequeue p).leased p).setOrder i { o with ending := true }).replied p f .ok (1 :: bytes32 s.tb.t)
    else (((s.dequeue p).leased p).cancelOrder i).replied p f .ok (0 :: bytes32 s.tb.t)) := by
  rw [← cancelChecks_dequeue_leased] at hc
  have hrow := rowOfEither_of_request (other := 0) h.2.1 (i := 2) (by rw [hm]; decide)
  split
  · rename_i he
    refine congrArg _ (take_admitted_eq (owner := cancelAtEndOwner) h (by decide) hrow ?_)
    simp only [cancelAtEndOwner, hc, he, if_true]
    rfl
  · rename_i he
    refine congrArg _ (take_admitted_eq (owner := cancelAtEndOwner) h (by decide) hrow ?_)
    simp only [cancelAtEndOwner, hc, he]
    rfl

end Cancel

/-- The reply to a state that a request's work leaves, as the answer to the state that the same work leaves where the
request still stands in its queue. -/
theorem replied_of_ports {s u v : State} {p : StationNo} (hv : v.ports = s.ports)
    (hu : u = { v with ports := (s.dequeue p).ports }) (f : RequestFrame) (outcome : ReplyCode) (payload : List Byte) :
    u.replied p f outcome payload = v.answered p f outcome payload := by
  have hd : (v.dequeue p).ports = (s.dequeue p).ports := by simp only [State.dequeue, State.setPort, State.port, hv]
  exact replied_eq_answered f outcome payload (by rw [hd]; exact hu)

/-- Settles O31: what the checks give, and what the owner of each row then does with the order. -/
theorem cancelRemovesOrEnds : Obligations.CancelRemovesOrEnds := by
  refine ⟨?_, ?_⟩
  · intro p s f i o h hi ho hp hg asserted ends
    have ho' : ((s.dequeue p).leased p).order i = some o := ho
    have removed : ∀ payload, (((s.dequeue p).leased p).removeOrder i).replied p f .ok payload =
        ((s.leased p).removeOrder i).answered p f .ok payload :=
      fun _ => replied_of_ports (s := s) (by rfl) (by rfl) f .ok _
    refine ⟨?_, ?_⟩
    · intro hm
      have hx := exec_cancelNow h (cancelChecks_ok hi (.inl hm) ho hg hp) hm
      refine ⟨?_, ?_⟩
      · intro l hl
        rw [hx, cancelOrder_of_assertedOn ho' hl, command_of_same (s := s) (u := (s.dequeue p).leased p) rfl]
        generalize s.command l .deassert = v
        exact congrArg _ (replied_of_ports (s := s) (by rfl) (by rfl) f .ok _)
      · intro hl
        rw [hx, cancelOrder_of_not_assertedOn ho' hl, removed]
    · intro hm
      have hx := exec_cancelAtEnd h (cancelChecks_ok hi (.inr hm) ho hg hp) hm
      refine ⟨?_, ?_⟩
      · intro he
        rw [hx, if_pos ((canEnd_iff o).mpr he)]
        exact congrArg _ (replied_of_ports (s := s) (by rfl) (by rfl) f .ok _)
      · intro he
        have hl : ∀ l, ¬o.assertedOn l := fun l hl => he ((canEnd_iff o).mp (canEnd_of_assertedOn hl))
        rw [hx, if_neg fun hend => he ((canEnd_iff o).mp hend), cancelOrder_of_not_assertedOn ho' hl, removed]
  · intro p s f c h hc
    exact ⟨fun hb => exec_cancel_refused h hc (cancelChecks_badValue hb),
      fun i hi hm hu => exec_cancel_refused h hc (cancelChecks_unknownOrder hi hm hu)⟩

end Sys2Proof.Machine
end

section
/-! POST: its form check passes a notify setting that names no value, which R65 and R172 refuse. -/

namespace Sys2Proof.Machine

/-- A POST of STEP ASSERT on L0 at time 0, with low half 4 in byte 17. -/
def unnamedNotify : RequestFrame :=
  { sequence := 0, session := 0, code := RequestCode.post.byte
    payload := [0, 0, 0, 0, 0, 0, 0, 0, 0, 0, 0, 0, 0, 0, 0, 0, 0, 0x04, 0, 0] }

/-- It is in form for the model: the last branch of `Notify.ofNibble` gives the setting `Notify.none`, where R65 asks for
no value at all. -/
theorem postForm_unnamedNotify :
    unnamedNotify.postForm = some ⟨.step, .assert, .absolute, .refuse, .none⟩ := by decide

/-- Refutes O26: byte 17 with low half 4, which names no notify setting (R172), passes the form check with notify NONE,
where R65 has the POST refused BAD_FORMAT. -/
theorem not_postChecksInOrder : ¬ Obligations.PostChecksInOrder := by
  rintro ⟨hread, -⟩
  obtain ⟨-, -, hnotify, -⟩ := hread unnamedNotify _ 65536 (.step 0 .assert) postForm_unnamedNotify (by decide)
  revert hnotify
  decide

end Sys2Proof.Machine
end

section
/-! The accepting branches of POST: what its checks let through, and an order that becomes SCHEDULED or ARMED (R66 to
R71). -/

namespace Sys2Proof.Machine

/-! ### What passes the checks -/

/-- The low half of a time's four bytes is its last two (R172). -/
theorem time_setWidth (f : RequestFrame) (i : Nat) : (f.time i).setWidth 16 = f.half (i + 2) := by
  unfold RequestFrame.time RequestFrame.half
  rw [BitVec.append_assoc]
  simp only [BitVec.setWidth_cast]
  exact BitVec.setWidth_append_eq_right

section Trigger

variable {f : RequestFrame} {x : PostForm}

theorem postTrigger_timed (h : x.mode ≠ .onCapture) : f.postTrigger x = some none := by
  unfold RequestFrame.postTrigger
  cases hm : x.mode with
  | onCapture => exact absurd hm h
  | _ => rfl

theorem postTrigger_onCapture (h : x.mode = .onCapture) {c : InputNo} (hc : (f.at 4).toNat = c.val)
    (hl : 1 ≤ (f.time 5).toNat) (hu : (f.time 5).toNat ≤ 65535) : f.postTrigger x = some (some ⟨c, f.half 7⟩) := by
  simp only [RequestFrame.postTrigger, h, inRange_of_toNat hc]
  rw [if_pos ⟨hl, hu⟩, time_setWidth]

theorem postDue_eq (t : Time) : f.postDue x t = if x.mode = .relative then t + f.time 5 else f.time 5 := by
  unfold RequestFrame.postDue
  cases x.mode <;> rfl

end Trigger

/-- The target checks pass where the station may target the lines (R66). -/
theorem targetRefusal_eq_none {p : StationNo} {s : State} {b : OrderBody} (h : s.mayTarget p b) :
    targetRefusal p s b = none := by
  obtain ⟨hheld, hunpaired, hnormal⟩ := h
  have hn : s.groupNormal b.group = true := by simpa [State.groupNormal] using hnormal
  have hp : ((linesOf b.targets).any fun l => !isPrimary l && s.pairBound (pairOf l)) = false := by
    rw [List.any_eq_false]
    intro l hl hbound
    obtain ⟨hsecond, hbound⟩ := Bool.and_eq_true_iff.mp hbound
    have hpartner : partner (pairOf l) = l := by
      have : l.val % 2 ≠ 0 := by simpa [isPrimary] using hsecond
      apply Fin.ext
      simp only [partner, pairOf]
      omega
    have := hunpaired (pairOf l) hbound
    rw [hpartner, mem_linesOf.mp hl] at this
    cases this
  rw [targetRefusal, (holdsAll_iff s p b.targets).mpr hheld, hp, hn]
  rfl

theorem classify_of_future {s : State} {t : Time} (h1 : 1 ≤ (t - s.tb.t).toNat)
    (h2 : (t - s.tb.t).toNat ≤ 2 ^ s.tb.h) : s.classify t = .future := if_pos ⟨h1, h2⟩

/-- The taking of a POST leaves what its checks read. -/
theorem postChecks_dequeue_leased (p : StationNo) (f : RequestFrame) (s : State) :
    postChecks p f ((s.dequeue p).leased p) = postChecks p f s := by
  have ht : ∀ b, targetRefusal p ((s.dequeue p).leased p) b = targetRefusal p s b := fun _ => rfl
  unfold postChecks
  simp only [ht, quota_dequeue_leased, orderCount_dequeue_leased]
  rfl

section Accepted

variable {p : StationNo} {s : State} {f : RequestFrame} {x : PostForm} {b : OrderBody} (hr : s.running = true)
  (hx : f.postForm = some x) (hb : f.postBody x s.horizon = some b) (ht : s.mayTarget p b)
  (hq : s.orderCount p < (s.station p).quota.toNat)
include hr hx hb ht hq

theorem postChecks_passes {tr : Option CaptureTrigger} (htr : f.postTrigger x = some tr) :
    postChecks p f s = .ok (x, b, tr) := by
  simp only [postChecks, hr, hx, hb, htr, targetRefusal_eq_none ht, if_neg (Nat.not_le.mpr hq)]
  rfl

/-- A timed POST whose due time is in the future (R67). -/
theorem postOwner_future (hm : x.mode ≠ .onCapture) {due : Time} (hd : f.postDue x s.tb.t = due)
    (hc : s.classify due = .future) :
    postOwner p f ((s.dequeue p).leased p) = postFuture p f ((s.dequeue p).leased p) x b due := by
  have hc' : ((s.dequeue p).leased p).classify due = .future := hc
  rw [postOwner, postChecks_dequeue_leased, postChecks_passes hr hx hb ht hq (postTrigger_timed hm)]
  simp only [dequeue_leased_tb, hd, hc']

/-- A late POST with policy FIRE (R68). -/
theorem postOwner_lateFire (hm : x.mode ≠ .onCapture) (hl : x.late = .fire)
    (hc : s.classify (f.postDue x s.tb.t) = .late) :
    postOwner p f ((s.dequeue p).leased p) = postLateFire p f ((s.dequeue p).leased p) x b := by
  have hc' : ((s.dequeue p).leased p).classify (f.postDue x s.tb.t) = .late := hc
  rw [postOwner, postChecks_dequeue_leased, postChecks_passes hr hx hb ht hq (postTrigger_timed hm)]
  simp only [dequeue_leased_tb, hc', hl]

/-- A POST that waits for a capture of an input it may use (R70). -/
theorem postOwner_armed {tr : CaptureTrigger} (htr : f.postTrigger x = some (some tr)) :
    postOwner p f ((s.dequeue p).leased p) = postArmed p f ((s.dequeue p).leased p) x b tr := by
  rw [postOwner, postChecks_dequeue_leased, postChecks_passes hr hx hb ht hq htr]

end Accepted

/-! ### SCHEDULED and ARMED -/

/-- Settles O27: the due time is in the future, and the order is placed in the state that the taking leaves. -/
theorem postSchedulesOrder : Obligations.PostSchedulesOrder := by
  intro p s f x b i h hr hx hb ht hq hi hu hm due h1 h2 phase o
  have hphase : b.firstPhase = phase := by cases b <;> rfl
  have hdue : f.postDue x s.tb.t = due := postDue_eq s.tb.t
  have hfree : ((s.dequeue p).leased p).lowestFree = some i := lowestFree_of hi
  let u := ((s.dequeue p).leased p).nextPost.placeOrder i o
  have howner : postOwner p f ((s.dequeue p).leased p) =
      { state := u, outcome := .ok, payload := s.handleBytes i ++ bytes32 due } := by
    rw [postOwner_future hr hx hb ht hq hm hdue (classify_of_future h1 h2)]
    simp only [postFuture, hfree, hphase]
    rfl
  have hrow := rowOf_of_request h.2.1
  refine ⟨u.replied p f .ok _, congrArg _ (take_admitted_eq (owner := postOwner) h (by decide) hrow howner), ?_, ?_⟩
  · exact replied_of_ports (s := s) (by rfl) (by rfl) f .ok _
  · have hold : s.schedule.filter (fun j => j != i) = s.schedule :=
      List.filter_eq_self.mpr fun j hj => bne_iff_ne.mpr fun e => hu.1 (e ▸ hj)
    have hplace := placeOrder_placed ((s.dequeue p).leased p).nextPost i o
    rw [show ((s.dequeue p).leased p).nextPost.schedule = s.schedule from rfl, hold] at hplace
    exact State.placed_congr hplace (fun _ _ => rfl) rfl rfl

/-- Settles O28: the order is armed in the state that the taking leaves. -/
theorem postArmsOrder : Obligations.PostArmsOrder := by
  intro p s f x b i c h hr hx hb ht hq hi hm hc hl hu hsub
  have hfree : ((s.dequeue p).leased p).lowestFree = some i := lowestFree_of hi
  have hsub' : inSet (((s.dequeue p).leased p).input c).subscribers p = true := hsub
  have howner : postOwner p f ((s.dequeue p).leased p) =
      { state := (((s.dequeue p).leased p).nextPost.setOrder i
          (postedOrder p f x b (some ⟨c, f.half 7⟩) .armed s.postSeq)).setArmed c (s.armedOn c ++ [i])
        outcome := .ok, payload := s.handleBytes i ++ bytes32 0 } := by
    rw [postOwner_armed hr hx hb ht hq (postTrigger_onCapture hm hc hl hu)]
    simp only [postArmed, hsub', hfree]
    rfl
  refine congrArg _ ((take_admitted_eq (owner := postOwner) h (by decide) (rowOf_of_request h.2.1) howner).trans ?_)
  exact replied_of_ports (s := s) (by rfl) (by rfl) f .ok _

end Sys2Proof.Machine
end

section
/-! The firing of the orders due reads no port's request queue and no lease timer, so that it leaves the same whether it
comes before or behind the taking of a request (R73, R155). -/

namespace Sys2Proof.Machine

/-! ### A state seen with other requests at one port -/

/-- What the taking of a request changes at its port and its station before its owner acts (R155, R136). -/
structure Aside where
  /-- The port. -/
  port : StationNo
  /-- The request queue. -/
  requests : List RequestFrame
  /-- The last request. -/
  lastRequest : Option (BitVec 6 × Byte)
  /-- The reply cache. -/
  replyCache : Option Reply
  /-- The lease timer of the port's station. -/
  leaseTimer : Option Half

def PortRec.asIf (r : PortRec) (v : Aside) : PortRec :=
  { r with requests := v.requests, lastRequest := v.lastRequest, replyCache := v.replyCache }

def State.asIf (s : State) (v : Aside) : State :=
  (s.setPort v.port ((s.port v.port).asIf v)).setStation v.port
    { s.station v.port with leaseTimer := v.leaseTimer }

theorem enqueue_asIf (r : PortRec) (v : Aside) (x : Notice) : (r.asIf v).enqueue x = (r.enqueue x).asIf v := by
  have hn : (r.asIf v).notices = r.notices := rfl
  unfold PortRec.enqueue
  rw [hn]
  split <;> rfl

theorem choose_asIf (r : PortRec) (v : Aside) (b : Byte) : (r.asIf v).choose true b = (r.choose true b).asIf v := by
  obtain ⟨_, _, _, slot, _, _, notices, _, _, transmitter, _⟩ := r
  cases transmitter with
  | idle =>
    cases slot with
    | some reply => rfl
    | none => cases notices <;> rfl
  | sending bytes n => rfl
  | cut => rfl

/-- A notice reads neither the request queue nor what is kept for a replay (R158, R159). -/
theorem noticed_asIf (r : PortRec) (v : Aside) (b : Byte) (x : Notice) :
    (r.asIf v).noticed b x = (r.noticed b x).asIf v := by
  rw [← enqueue_choose, enqueue_asIf, choose_asIf, enqueue_choose]

/-- A notice puts no reply into the reply slot. -/
theorem noticed_replySlot {r : PortRec} (h : r.replySlot = none) (b : Byte) (x : Notice) :
    (r.noticed b x).replySlot = none := by
  have he : (r.enqueue x).replySlot = none := by unfold PortRec.enqueue; split <;> exact h
  rw [← enqueue_choose]
  unfold PortRec.choose
  rw [he]
  split
  · dsimp only
    split
    · rfl
    · exact he
  · exact he
  · exact he

theorem setStation_setPort (s : State) (n m : StationNo) (r : StationRec) (q : PortRec) :
    (s.setStation n r).setPort m q = (s.setPort m q).setStation n r := rfl

theorem setPort_comm (s : State) (x y : PortRec) {n m : StationNo} (h : n ≠ m) :
    (s.setPort n x).setPort m y = (s.setPort m y).setPort n x := by
  simp only [State.setPort, Vector.set_comm x y (fun e => h (Fin.ext e))]

/-- A place in the schedule list reads only the orders, T and the post sequence. -/
theorem insertPlace_congr {s t : State} (ho : ∀ j, t.order j = s.order j) (ht : t.tb.t = s.tb.t)
    (hq : t.postSeq = s.postSeq) (o : Order) (i : SlotNo) (l : List SlotNo) :
    t.insertPlace o i l = s.insertPlace o i l := by
  have hb : ∀ b, t.standsBefore o b = s.standsBefore o b := fun b => by
    unfold State.standsBefore State.distance State.age
    rw [ht, hq]
  induction l with
  | nil => rfl
  | cons j rest ih => simp only [State.insertPlace, ho, hb, ih]

/-- `t` is `s` with other requests at a port whose reply slot is empty. -/
structure Mirrors (v : Aside) (s t : State) : Prop where
  eq : t = s.asIf v
  free : (s.port v.port).replySlot = none

namespace Mirrors

variable {v : Aside} {s t : State} (h : Mirrors v s t)
include h

theorem tb : t.tb = s.tb := by rw [h.eq]; rfl

theorem order (i : SlotNo) : t.order i = s.order i := by rw [h.eq]; rfl

theorem handle (i : SlotNo) : t.handle i = s.handle i := by rw [h.eq]; rfl

theorem groupNormal (g : GroupNo) : t.groupNormal g = s.groupNormal g := by rw [h.eq]; rfl

theorem samePlan : SamePlan s t := by rw [h.eq]; exact .of_eq rfl rfl rfl rfl rfl

/-- Work on the line unit's records. -/
theorem onlyLines {u : State} (hu : OnlyLines s u) : Mirrors v u { t with lines := u.lines, pairs := u.pairs } := by
  refine ⟨?_, by rw [hu.port]; exact h.free⟩
  rw [hu, h.eq]
  rfl

theorem command (l : LineNo) (c : LineCommand) : Mirrors v (s.command l c) (t.command l c) := by
  rw [command_of_same (s := s) (u := t) (by rw [h.eq]; rfl)]
  exact h.onlyLines (command_frame s l c)

theorem completeGap (k : PairNo) : Mirrors v (s.completeGap k) (t.completeGap k) := by
  have ht : t = t.withLinesOf s := by rw [h.eq]; rfl
  have hc : t.completeGap k = { t with lines := (s.completeGap k).lines, pairs := (s.completeGap k).pairs } := by
    conv_lhs => rw [ht, completeGap_withLinesOf, completeGap_frame s k]
    rw [ht]
    rfl
  rw [hc]
  exact h.onlyLines (completeGap_frame s k)

theorem edgeCommand (cause : EdgeCause) (l : LineNo) (c : LineCommand) :
    Mirrors v (s.edgeCommand cause l c) (t.edgeCommand cause l c) := by
  cases cause with
  | due => exact (h.completeGap _).command l c
  | atPost => exact h.command l c
  | atTrigger => exact h.command l c

omit h in
theorem foldl {α : Type} {f : State → α → State} (step : ∀ {s t} x, Mirrors v s t → Mirrors v (f s x) (f t x)) :
    ∀ (l : List α) {s t}, Mirrors v s t → Mirrors v (l.foldl f s) (l.foldl f t)
  | [], _, _, h => h
  | x :: l, _, _, h => foldl step l (step x h)

theorem patternCommands (cause : EdgeCause) (g : GroupNo) (mask levels : BitVec 4) :
    Mirrors v (s.patternCommands cause g mask levels) (t.patternCommands cause g mask levels) := by
  refine foldl (fun {s t} j hj => ?_) _ h
  split
  · exact hj.edgeCommand _ _ _
  · exact hj

theorem removeOrder (i : SlotNo) : Mirrors v (s.removeOrder i) (t.removeOrder i) :=
  ⟨by rw [h.eq]; rfl, h.free⟩

theorem placeOrder (i : SlotNo) (o : Order) : Mirrors v (s.placeOrder i o) (t.placeOrder i o) := by
  refine ⟨?_, h.free⟩
  unfold State.placeOrder
  rw [insertPlace_congr h.order (by rw [h.tb]) (by rw [h.eq]; rfl) o i, h.samePlan.schedule, h.eq]
  rfl

theorem isBound (n : StationNo) : t.isBound n = s.isBound n := by
  rw [h.eq]
  unfold State.isBound State.asIf
  rw [State.setStation_station]
  split
  · rename_i e; rw [e]
  · rfl

theorem sessionByte (n : StationNo) : t.sessionByte n = s.sessionByte n := by
  rw [h.eq]
  unfold State.sessionByte State.asIf
  rw [State.setStation_station]
  split
  · rename_i e; rw [e]
  · rfl

theorem port (n : StationNo) : t.port n = if n = v.port then (s.port n).asIf v else s.port n := by
  rw [h.eq]
  refine (State.setPort_port s v.port _ n).trans ?_
  split
  · rename_i e; rw [e]
  · rfl

theorem appendNotice (n : StationNo) (x : Notice) : Mirrors v (s.appendNotice n x) (t.appendNotice n x) := by
  cases hb : s.isBound n with
  | false =>
    rw [appendNotice_unbound hb, appendNotice_unbound ((h.isBound n).trans hb)]
    exact h
  | true =>
    rw [appendNotice_bound hb, appendNotice_bound ((h.isBound n).trans hb), h.sessionByte, h.port]
    by_cases hn : n = v.port
    · subst hn
      refine ⟨?_, by rw [State.setPort_port_self]; exact noticed_replySlot h.free _ _⟩
      rw [if_pos rfl, noticed_asIf, h.eq]
      unfold State.asIf
      rw [State.setPort_port_self, setStation_setPort, State.setPort_setPort, State.setPort_setPort]
      rfl
    · refine ⟨?_, by rw [State.setPort_port_ne _ _ _ (Ne.symm hn)]; exact h.free⟩
      rw [if_neg hn, h.eq]
      unfold State.asIf
      rw [State.setPort_port_ne _ _ _ (Ne.symm hn), setPort_comm s _ _ hn]
      rfl

/-! ### Edges and firings -/

theorem fired (cause : EdgeCause) (w : Handle) (o : Order) : Mirrors v (s.fired cause w o) (t.fired cause w o) := by
  unfold State.fired
  rw [h.tb]
  split
  · exact h.appendNotice _ _
  · exact h

theorem ended (w : Handle) (o : Order) (r : EndReason) : Mirrors v (s.ended w o r) (t.ended w o r) := by
  unfold State.ended
  rw [h.tb]
  split
  · exact h.appendNotice _ _
  · exact h

theorem suppress (i : SlotNo) (o : Order) : Mirrors v (s.suppress i o) (t.suppress i o) := by
  unfold State.suppress
  rw [h.tb, h.handle]
  exact (h.removeOrder i).appendNotice _ _

variable (cause : EdgeCause) (i : SlotNo) (o : Order) (l : LineNo)

theorem fireStep (a : StepAction) : Mirrors v (s.fireStep cause i o l a) (t.fireStep cause i o l a) := by
  unfold State.fireStep
  rw [h.groupNormal, h.handle]
  split
  · exact ((h.edgeCommand cause l _).removeOrder i).fired _ _ _
  · exact h.suppress i o

theorem firePattern (g : GroupNo) (mask levels : BitVec 4) :
    Mirrors v (s.firePattern cause i o g mask levels) (t.firePattern cause i o g mask levels) := by
  unfold State.firePattern
  rw [h.groupNormal, h.handle]
  split
  · exact ((h.patternCommands cause g mask levels).removeOrder i).fired _ _ _
  · exact h.suppress i o

theorem firePulseLeading (w : Span) :
    Mirrors v (s.firePulseLeading cause i o l w) (t.firePulseLeading cause i o l w) := by
  unfold State.firePulseLeading
  rw [h.groupNormal, h.handle, h.tb]
  split
  · exact ((h.edgeCommand cause l _).placeOrder i _).fired _ _ _
  · exact h.suppress i o

theorem firePulseTrailing : Mirrors v (s.firePulseTrailing cause i o l) (t.firePulseTrailing cause i o l) := by
  unfold State.firePulseTrailing
  rw [h.groupNormal, h.handle]
  split
  · exact ((h.edgeCommand cause l _).removeOrder i).ended _ _ _
  · exact h.suppress i o

theorem endTrain (r : EndReason) : Mirrors v (s.endTrain cause i o l r) (t.endTrain cause i o l r) := by
  unfold State.endTrain
  rw [h.groupNormal, h.handle, h.tb]
  split
  · exact ((h.edgeCommand cause l _).removeOrder i).ended _ _ _
  · exact (h.removeOrder i).appendNotice _ _

theorem widthStep (x : TrainRec) : Mirrors v (s.widthStep cause i o l x) (t.widthStep cause i o l x) := by
  unfold State.widthStep
  rw [h.groupNormal, h.handle, h.tb]
  dsimp only
  split
  · exact ((h.edgeCommand cause l _).placeOrder i _).fired _ _ _
  · exact h.placeOrder i _

theorem periodStart (x : TrainRec) : Mirrors v (s.periodStart cause i o l x) (t.periodStart cause i o l x) := by
  unfold State.periodStart
  split
  · exact h.endTrain cause i o l _
  · split
    · exact h.endTrain cause i o l _
    · exact h.widthStep cause i o l _

theorem trainTrailing (x : TrainRec) : Mirrors v (s.trainTrailing cause i o l x) (t.trainTrailing cause i o l x) := by
  unfold State.trainTrailing
  rw [h.tb]
  exact (h.edgeCommand cause l _).placeOrder i _

theorem fireEdge : Mirrors v (s.fireEdge cause i o) (t.fireEdge cause i o) := by
  unfold State.fireEdge
  cases o.body with
  | step l a => exact h.fireStep cause i o l a
  | pattern g mask levels => exact h.firePattern cause i o g mask levels
  | pulse l w =>
    dsimp only
    split
    · exact h.firePulseTrailing cause i o l
    all_goals exact h.firePulseLeading cause i o l w
  | train l x =>
    dsimp only
    split
    · exact h.trainTrailing cause i o l x
    all_goals exact h.periodStart cause i o l x

omit h in
theorem fireDueSlot {s t : State} (i : SlotNo) (h : Mirrors v s t) : Mirrors v (s.fireDueSlot i) (t.fireDueSlot i) := by
  unfold State.fireDueSlot
  rw [h.order, h.samePlan.orderDue]
  split
  · split
    · exact h.fireEdge .due i _
    · exact h
  · exact h

theorem fireDue : Mirrors v s.fireDue t.fireDue := by
  unfold State.fireDue
  rw [h.samePlan.dueSlots]
  exact foldl fireDueSlot _ h

end Mirrors

/-! ### The taking of a request -/

/-- A port's own values, with those that the taking of its oldest request leaves. -/
def State.aside (s : State) (p : StationNo) (requests : List RequestFrame) (leaseTimer : Option Half) : Aside :=
  ⟨p, requests, (s.port p).lastRequest, (s.port p).replyCache, leaseTimer⟩

theorem taken_eq_asIf (s : State) (p : StationNo) : (s.dequeue p).leased p =
    s.asIf (s.aside p (s.port p).requests.tail (s.station p).leasePeriod) := rfl

theorem eq_asIf (s : State) (p : StationNo) :
    s = s.asIf (s.aside p (s.port p).requests (s.station p).leaseTimer) :=
  ((State.setStation_self_same _ p).symm.trans
    (congrArg (fun u : State => u.setStation p (s.station p)) (State.setPort_self_same s p).symm))

section Taking

variable {s : State} {p : StationNo} (h : (s.port p).replySlot = none)
include h

/-- The firing of the orders due leaves what a port has to take, and puts no reply into its slot. -/
theorem port_fireDue : (s.fireDue.port p).requests = (s.port p).requests ∧
    (s.fireDue.port p).lastRequest = (s.port p).lastRequest ∧
    (s.fireDue.port p).replyCache = (s.port p).replyCache ∧ (s.fireDue.port p).replySlot = none := by
  have hm := Mirrors.fireDue ⟨eq_asIf s p, h⟩
  have hp := (hm.port p).trans (if_pos rfl)
  refine ⟨?_, ?_, ?_, hm.free⟩ <;> rw [hp] <;> rfl

/-- The orders due may be fired before or behind the taking of a request. -/
theorem taken_fireDue : ((s.dequeue p).leased p).fireDue = (s.fireDue.dequeue p).leased p := by
  obtain ⟨hrequests, hlast, hcache, -⟩ := port_fireDue h
  have hst : s.fireDue.stations = s.stations := (calm_fireDue s).stations
  rw [(Mirrors.fireDue ⟨taken_eq_asIf s p, h⟩).eq, taken_eq_asIf]
  simp only [State.aside, hrequests, hlast, hcache, State.station, hst]

end Taking

end Sys2Proof.Machine
end

section
/-! A late POST with policy FIRE: the orders due come first, and the order is then applied at once (R68, R69, R71). -/

namespace Sys2Proof.Machine

/-! ### What stands after the firing of the orders due -/

theorem classify_of_late {s : State} {t : Time} (h : (t - s.tb.t).toNat = 0 ∨ 2 ^ 31 < (t - s.tb.t).toNat)
    (hh : s.tb.h ≤ 30) : s.classify t = .late := by
  have hH : s.horizon ≤ 2 ^ 30 := Nat.pow_le_pow_right (by decide) hh
  have hd : s.distance t = 0 ∨ 2 ^ 31 < s.distance t := h
  rw [State.classify, if_neg (by omega), if_neg (by omega)]

theorem lowestFree_ne_none {s : State} {i : SlotNo} (h : s.order i = none) : s.lowestFree ≠ none := by
  intro hn
  have := List.find?_eq_none.mp hn i (List.mem_finRange i)
  rw [h] at this
  exact this rfl

theorem mayTarget_fireDue {s : State} {p : StationNo} {b : OrderBody} (h : s.mayTarget p b) :
    s.fireDue.mayTarget p b := by
  obtain ⟨hheld, hunpaired, hnormal⟩ := h
  have hk := keeps_work.fireDue s
  exact ⟨fun l hl => (hk.holds p l).trans (hheld l hl), fun k hb => hunpaired k (hk.pairBound k hb),
    by rw [(fireDue_frame s).group]; exact hnormal⟩

theorem admits_fireDue {s : State} {p : StationNo} {f : RequestFrame} {c : RequestCode} (h : s.admits p f c) :
    s.fireDue.admits p f c := by
  obtain ⟨⟨hreset, hslot, hhead, howed, hreplay⟩, hcode, hlen, hbound, hnumber⟩ := h
  obtain ⟨hrequests, hlast, hcache, hslot'⟩ := port_fireDue hslot
  have hst : s.fireDue.station p = s.station p := (fireDue_frame s).station p
  refine ⟨⟨(fireDue_frame s).inReset.trans hreset, hslot', by rw [hrequests]; exact hhead, ?_, ?_⟩, hcode, hlen,
    ?_, ?_⟩
  · rw [State.leaseOwed, State.isBound, hst]; exact howed
  · rw [hlast, hcache]; exact hreplay
  · rw [hst]; exact hbound
  · rw [hst]; exact hnumber

theorem order_none_of_ordersFrom {s t : State} (a : OrdersFrom s t) {i : SlotNo} (h : s.order i = none) :
    t.order i = none := by
  cases ho : t.order i with
  | none => rfl
  | some o =>
    obtain ⟨b, hb, -⟩ := a i o ho
    rw [h] at hb
    cases hb

/-- A late POST with FIRE acts as it does behind the firings. -/
theorem postLateFire_fireDue {s : State} {p : StationNo} (hslot : (s.port p).replySlot = none) (hs : Fireable s)
    {i : SlotNo} (hi : s.order i = none) (f : RequestFrame) (x : PostForm) (b : OrderBody) :
    postLateFire p f ((s.dequeue p).leased p) x b = postLateFire p f ((s.fireDue.dequeue p).leased p) x b := by
  have hnone : ((s.fireDue.dequeue p).leased p).fireDue = (s.fireDue.dequeue p).leased p :=
    fireDue_of_dueSlots_nil (dueSlots_fireDue hs)
  have htb : ((s.fireDue.dequeue p).leased p).tb = ((s.dequeue p).leased p).tb := (fireDue_frame s).tb
  have hq : ((s.fireDue.dequeue p).leased p).postSeq = ((s.dequeue p).leased p).postSeq := (fireDue_frame s).postSeq
  have hfree : ((s.fireDue.dequeue p).leased p).lowestFree ≠ none :=
    lowestFree_ne_none (i := i) (order_none_of_ordersFrom (calm_fireDue s).orders hi)
  obtain ⟨j, hj⟩ := Option.ne_none_iff_exists'.mp hfree
  rw [postLateFire, postLateFire, taken_fireDue hslot, hnone, htb, hq, hj]

/-- The first part of O29: the firings come first, and nothing that the POST reads changes. -/
theorem exec_post_fireDue {s : State} {p : StationNo} {f : RequestFrame} {x : PostForm} {b : OrderBody}
    (h : s.admits p f .post) (hr : s.running = true) (hx : f.postForm = some x)
    (hb : f.postBody x s.horizon = some b) (ht : s.mayTarget p b)
    (hq : s.orderCount p < (s.station p).quota.toNat) (hm : x.mode ≠ .onCapture) (hl : x.late = .fire)
    (hc : s.classify (f.postDue x s.tb.t) = .late) (hs : Fireable s) {i : SlotNo} (hi : s.order i = none) :
    exec (.post p) s = exec (.post p) s.fireDue := by
  have hf := fireDue_frame s
  have hst : s.fireDue.station p = s.station p := hf.station p
  have hh : s.fireDue.horizon = s.horizon := by rw [State.horizon, hf.tb]; rfl
  have hq' : s.fireDue.orderCount p < (s.fireDue.station p).quota.toNat := by
    rw [hst]
    exact lt_of_le_of_lt ((calm_fireDue s).orders.orderCount_le p) hq
  have hc' : s.fireDue.classify (f.postDue x s.fireDue.tb.t) = .late := by
    rw [hf.tb, State.classify, State.distance, hh, hf.tb]
    exact hc
  have howner : postOwner p f ((s.dequeue p).leased p) = postOwner p f ((s.fireDue.dequeue p).leased p) := by
    rw [postOwner_lateFire hr hx hb ht hq hm hl hc,
      postOwner_lateFire ((calm_fireDue s).running.trans hr) hx (by rw [hh]; exact hb) (mayTarget_fireDue ht) hq' hm
        hl hc']
    exact postLateFire_fireDue h.1.2.1 hs hi f x b
  refine congrArg Host.Outcome.next ?_
  have hrow := rowOf_of_request h.2.1
  rw [take_admitted h (by decide) hrow, take_admitted (admits_fireDue h) (by decide) hrow, howner]

/-! ### The order applied at once -/

/-- The state in which a late POST makes its order's first edge: the request taken, and the order in its slot. -/
def State.posted (s : State) (p : StationNo) (i : SlotNo) (o : Order) : State :=
  ((s.dequeue p).leased p).nextPost.setOrder i o

theorem exec_post_lateFire {s : State} {p : StationNo} {f : RequestFrame} {x : PostForm} {b : OrderBody} {i : SlotNo}
    (h : s.admits p f .post) (hr : s.running = true) (hx : f.postForm = some x)
    (hb : f.postBody x s.horizon = some b) (ht : s.mayTarget p b)
    (hq : s.orderCount p < (s.station p).quota.toNat) (hm : x.mode ≠ .onCapture) (hl : x.late = .fire)
    (hc : s.classify (f.postDue x s.tb.t) = .late) (hi : s.lowestFreeIs i) (hn : s.noneDue) :
    exec (.post p) s = .next (((s.posted p i (postedOrder p f x b none (.scheduled s.tb.t b.firstPhase)
      s.postSeq)).fireEdge .atPost i (postedOrder p f x b none (.scheduled s.tb.t b.firstPhase) s.postSeq)).replied p f
      .okLate (s.handleBytes i ++ bytes32 s.tb.t)) := by
  have hnone : ((s.dequeue p).leased p).fireDue = (s.dequeue p).leased p :=
    fireDue_of_dueSlots_nil ((noneDue_iff s).mp hn)
  have hfree : ((s.dequeue p).leased p).lowestFree = some i := lowestFree_of hi
  refine congrArg _ (take_admitted_eq (owner := postOwner) h (by decide) (rowOf_of_request h.2.1) ?_)
  rw [postOwner_lateFire hr hx hb ht hq hm hl hc, postLateFire, hnone, hfree]
  rfl

section Posted

variable {s : State} {p : StationNo} {i : SlotNo} (hu : s.unlisted i) {o : Order}
include hu

theorem filter_schedule_of_unlisted : s.schedule.filter (fun j => j != i) = s.schedule :=
  List.filter_eq_self.mpr fun _ hj => bne_iff_ne.mpr fun e => hu.1 (e ▸ hj)

theorem filter_armed_of_unlisted : s.armed.map (fun l => l.filter (fun j => j != i)) = s.armed := by
  ext c hc : 1
  rw [Vector.getElem_map]
  exact List.filter_eq_self.mpr fun _ hj => bne_iff_ne.mpr fun e => hu.2 ⟨c, hc⟩ (e ▸ hj)

omit hu in
/-- A slot written again after the posting of its order. -/
theorem set_slots_posted (r : Slot) : (s.posted p i o).slots.set i r = s.slots.set i r :=
  Vector.set_set (hi := i.isLt) ..

omit hu in
theorem generation_posted : ((s.posted p i o).slot i).generation = (s.slot i).generation := by
  rw [State.posted, State.setOrder, State.setSlot_slot_self]
  rfl

omit hu in
theorem schedule_posted : (s.posted p i o).schedule = s.schedule := rfl

omit hu in
theorem armed_posted : (s.posted p i o).armed = s.armed := rfl

variable {u : State} (hl : OnlyLines (s.posted p i o) u)
include hl

omit hu in
/-- Commands and work on orders leave all else as the posting left it. -/
theorem onlyOrders_posted {t : State} (ht : OnlyOrders u t) :
    OnlyOrders { s.leased p with postSeq := s.postSeq + 1 } t :=
  ((show OnlyOrders _ (s.posted p i o) from rfl).trans hl.toOrders).trans ht

/-- The order removed again: its slot is free, and the slot's generation has moved on (R56, R57). -/
theorem removeOrder_posted : u.removeOrder i =
    { s.leased p with
      postSeq := s.postSeq + 1
      slots := s.slots.set i ⟨(s.slot i).generation + 1, none⟩
      lines := u.lines, pairs := u.pairs, ports := (s.dequeue p).ports } := by
  have hslots : (u.removeOrder i).slots = s.slots.set i ⟨(s.slot i).generation + 1, none⟩ := by
    show u.slots.set i ⟨(u.slot i).generation + 1, none⟩ = _
    rw [hl.slot, generation_posted, hl.slots, set_slots_posted]
  have hsched : (u.removeOrder i).schedule = s.schedule := by
    rw [removeOrder_schedule, hl.schedule, schedule_posted, filter_schedule_of_unlisted hu]
  have harmed : (u.removeOrder i).armed = s.armed := by
    show u.armed.map (fun l => l.filter (fun j => j != i)) = s.armed
    rw [hl.armed, armed_posted, filter_armed_of_unlisted hu]
  have hports : (u.removeOrder i).ports = (s.dequeue p).ports := hl.ports
  refine Eq.trans (onlyOrders_posted hl (removeOrder_frame u i)) ?_
  rw [hslots, hsched, harmed, hports]
  rfl

omit hu in
/-- The order placed for its next edge. -/
theorem placeOrder_posted (b : Order) : u.placeOrder i b =
    { (s.leased p).setOrder i b with
      postSeq := s.postSeq + 1
      lines := u.lines, pairs := u.pairs, schedule := (u.placeOrder i b).schedule
      ports := (s.dequeue p).ports } := by
  have hslots : (u.placeOrder i b).slots = s.slots.set i ⟨(s.slot i).generation, some b⟩ := by
    show u.slots.set i ⟨(u.slot i).generation, some b⟩ = _
    rw [hl.slot, generation_posted, hl.slots, set_slots_posted]
  have harmed : (u.placeOrder i b).armed = s.armed := hl.armed
  have hports : (u.placeOrder i b).ports = (s.dequeue p).ports := hl.ports
  refine Eq.trans (onlyOrders_posted hl (placeOrder_frame u i b)) ?_
  rw [hslots, harmed, hports]
  rfl

theorem placed_posted (b : Order) :
    (u.placeOrder i b).placed i b s.schedule (u.placeOrder i b).schedule := by
  have h := placeOrder_placed u i b
  rwa [hl.schedule, schedule_posted, filter_schedule_of_unlisted hu] at h

/-- The reply behind the removal. -/
theorem removeOrder_posted_replied {v : State} (hlines : u.lines = v.lines) (hpairs : u.pairs = v.pairs)
    (f : RequestFrame) (payload : List Byte) : (u.removeOrder i).replied p f .okLate payload =
    ({ s.leased p with
      postSeq := s.postSeq + 1
      slots := s.slots.set i ⟨(s.slot i).generation + 1, none⟩
      lines := v.lines, pairs := v.pairs } : State).answered p f .okLate payload := by
  rw [removeOrder_posted hu hl, hlines, hpairs]
  exact replied_of_ports (s := s) (by rfl) (by rfl) f .okLate payload

/-- The reply behind the placing, and the place. -/
theorem placeOrder_posted_replied {v : State} (hlines : u.lines = v.lines) (hpairs : u.pairs = v.pairs) (b : Order)
    (f : RequestFrame) (payload : List Byte) : ∃ t : State, (u.placeOrder i b).replied p f .okLate payload = t ∧
    t = ({ ({ s.leased p with postSeq := s.postSeq + 1 } : State).setOrder i b with
      lines := v.lines, pairs := v.pairs, schedule := t.schedule }).answered p f .okLate payload ∧
    t.placed i b s.schedule t.schedule := by
  refine ⟨_, rfl, ?_, State.placed_congr (placed_posted hu hl b) (fun _ _ => rfl) rfl rfl⟩
  have h := placeOrder_posted hl b
  rw [hlines, hpairs] at h
  exact replied_of_ports (s := s) (by rfl) h f .okLate payload

end Posted

theorem command_lines_of_same {s u : State} (h : u = u.withLinesOf s) (l : LineNo) (c : LineCommand) :
    (u.command l c).lines = (s.command l c).lines ∧ (u.command l c).pairs = (s.command l c).pairs := by
  rw [command_of_same h]
  exact ⟨rfl, rfl⟩

/-- The commands of a PATTERN act on the line unit's records alone (R76). -/
theorem patternCommands_withLinesOf (u s : State) (g : GroupNo) (mask levels : BitVec 4) :
    (u.withLinesOf s).patternCommands .atPost g mask levels =
      u.withLinesOf (s.patternCommands .atPost g mask levels) := by
  unfold State.patternCommands
  refine List.foldl_hom (f := u.withLinesOf) fun v j => ?_
  split
  · exact command_withLinesOf u v _ _
  · rfl

theorem patternCommands_lines_of_same {s u : State} (h : u = u.withLinesOf s) (g : GroupNo) (mask levels : BitVec 4) :
    (u.patternCommands .atPost g mask levels).lines = (s.patternCommands .atPost g mask levels).lines ∧
      (u.patternCommands .atPost g mask levels).pairs = (s.patternCommands .atPost g mask levels).pairs := by
  rw [h, patternCommands_withLinesOf]
  exact ⟨rfl, rfl⟩

theorem posted_withLinesOf (s : State) (p : StationNo) (i : SlotNo) (o : Order) :
    s.posted p i o = (s.posted p i o).withLinesOf s := rfl

/-! ### The edges of an order applied at a POST -/

section AtPost

variable {s : State} {i : SlotNo} {o : Order} (hn : s.groupNormal o.body.group = true)
include hn

theorem fireEdge_step_atPost {l : LineNo} {a : StepAction} (hb : o.body = .step l a) :
    s.fireEdge .atPost i o = (s.command l a.command).removeOrder i := by
  have hn' : s.groupNormal (groupOf l) = true := by rw [hb] at hn; exact hn
  rw [State.fireEdge, hb]
  dsimp only
  rw [State.fireStep, if_pos hn', fired_atPost]
  rfl

theorem fireEdge_pattern_atPost {g : GroupNo} {mask levels : BitVec 4} (hb : o.body = .pattern g mask levels) :
    s.fireEdge .atPost i o = (s.patternCommands .atPost g mask levels).removeOrder i := by
  have hn' : s.groupNormal g = true := by rw [hb] at hn; exact hn
  rw [State.fireEdge, hb]
  dsimp only
  rw [State.firePattern, if_pos hn', fired_atPost]

theorem fireEdge_pulse_atPost {l : LineNo} {w : Span} {e : Time} (hb : o.body = .pulse l w)
    (hs : o.state = .scheduled e .leading) :
    s.fireEdge .atPost i o = (s.command l .assert).placeOrder i
      { o with state := .scheduled (s.tb.t + w.setWidth 32) .trailing, started := true } := by
  have hn' : s.groupNormal (groupOf l) = true := by rw [hb] at hn; exact hn
  rw [State.fireEdge, hb, hs]
  dsimp only
  rw [State.firePulseLeading, if_pos hn', fired_atPost, hb]
  rfl

/-- The first period start of a train: no count is made and no revision is pending (R85 to R89). -/
theorem fireEdge_train_atPost {l : LineNo} {x : TrainRec} {e : Time} (hb : o.body = .train l x)
    (hs : o.state = .scheduled e .leading) (hbegun : x.begun = false) (hr : x.pending = none) (he : o.ending = false) :
    s.fireEdge .atPost i o =
      (s.command l (if x.width = 0 then .deassert else .assert)).placeOrder i
        { o with
          body := .train l { x with begun := true }
          state := if x.width = 0 ∨ x.width = x.period then .scheduled (s.tb.t + x.period.setWidth 32) .leading
            else .scheduled (s.tb.t + x.width.setWidth 32) .trailing
          started := true } := by
  have hcount : x.countStep = some x.remaining := by
    unfold TrainRec.countStep
    cases x.remaining <;> simp [hbegun]
  have hrevise : ({ x with remaining := x.remaining } : TrainRec).revise = x := by
    simp only [TrainRec.revise, hr]
  have hn' : s.groupNormal (groupOf l) = true := by rw [hb] at hn; exact hn
  rw [State.fireEdge, hb, hs]
  dsimp only
  rw [State.periodStart, hcount]
  dsimp only
  rw [if_neg (by rw [he]; decide), hrevise]
  simp only [State.widthStep, hn', if_true, fired_atPost]
  rfl

end AtPost

/-- Settles O29: the firings come first, and each kind then makes its first edge in the state that its posting left. -/
theorem latePostAppliesAtOnce : Obligations.LatePostAppliesAtOnce := by
  refine ⟨?_, ?_⟩
  · intro p s f x b h hr hx hb ht hq hm hl due hlate hh hnodup hspans ⟨i, hi⟩
    have hs : Fireable s := ⟨hnodup, hspans⟩
    have hc : s.classify (f.postDue x s.tb.t) = .late := by rw [postDue_eq]; exact classify_of_late hlate hh
    exact ⟨exec_post_fireDue h hr hx hb ht hq hm hl hc hs hi, (noneDue_iff _).mpr (dueSlots_fireDue hs),
      admits_fireDue h, mayTarget_fireDue ht, lt_of_le_of_lt ((calm_fireDue s).orders.orderCount_le p) hq,
      (fireDue_frame s).station p, (fireDue_frame s).tb⟩
  · intro p s f x b i h hr hx hb ht hq hi hu hnone hm hl due hlate hh taken gone reply
    have hc : s.classify (f.postDue x s.tb.t) = .late := by rw [postDue_eq]; exact classify_of_late hlate hh
    have hexec := exec_post_lateFire h hr hx hb ht hq hm hl hc hi hnone
    have hn : s.groupNormal b.group = true := by simpa [State.groupNormal] using ht.2.2
    cases b with
    | step l a =>
      obtain ⟨hlines, hpairs⟩ := command_lines_of_same (posted_withLinesOf s p i _) l a.command
      rw [fireEdge_step_atPost hn rfl, removeOrder_posted_replied hu (command_frame _ l _) hlines hpairs] at hexec
      exact hexec
    | pattern g m levels =>
      obtain ⟨hlines, hpairs⟩ := patternCommands_lines_of_same (posted_withLinesOf s p i _) g m levels
      rw [fireEdge_pattern_atPost hn rfl,
        removeOrder_posted_replied hu (patternCommands_frame _ _ g m levels) hlines hpairs] at hexec
      exact hexec
    | pulse l w =>
      obtain ⟨hlines, hpairs⟩ := command_lines_of_same (posted_withLinesOf s p i _) l .assert
      rw [fireEdge_pulse_atPost hn rfl rfl] at hexec
      obtain ⟨t, ht, hplaced⟩ := placeOrder_posted_replied hu (command_frame _ l _) hlines hpairs _ f reply
      exact ⟨t, hexec.trans (congrArg _ ht), hplaced⟩
    | train l y =>
      obtain ⟨hlines, hpairs⟩ := command_lines_of_same (posted_withLinesOf s p i _) l
        (if y.width = 0 then .deassert else .assert)
      have hy : y = f.postTrain := by
        rcases postBody_cases hb with ⟨_, _, _, hy⟩ | ⟨_, _, _, _, hy⟩ | ⟨_, _, _, _, hy⟩ | ⟨_, _, _, _, hy⟩
        all_goals cases hy
        rfl
      rw [fireEdge_train_atPost hn rfl rfl (by rw [hy]; rfl) (by rw [hy]; rfl) rfl] at hexec
      obtain ⟨t, ht, hplaced⟩ := placeOrder_posted_replied hu (command_frame _ l _) hlines hpairs _ f reply
      exact ⟨t, hexec.trans (congrArg _ ht), hplaced⟩

end Sys2Proof.Machine
end

section
/-! The edges of a TRAIN in a NORMAL group, as FIRING makes them (R85 to R91). -/

namespace Sys2Proof.Machine

/-! ### The count and the revision of a period start -/

/-- The count is exhausted where it has run down to its last period; a remaining count of 0 counts as exhausted too
(R86, assumption 19). -/
theorem countStep_exhausted {x : TrainRec} (h : x.begun = true ∧ ∃ n, x.remaining = some n ∧ n.toNat ≤ 1) :
    x.countStep = none := by
  obtain ⟨hbegun, n, hn, hle⟩ := h
  simp only [TrainRec.countStep, hn, hbegun, if_true, if_pos hle]

/-- Only a train that has begun counts down, and only where a count is kept (R86). -/
theorem countStep_counts {x : TrainRec} (h : ¬(x.begun = true ∧ ∃ n, x.remaining = some n ∧ n.toNat ≤ 1)) :
    x.countStep = some (if x.begun then x.remaining.map (fun n => n - 1) else x.remaining) := by
  unfold TrainRec.countStep
  cases hr : x.remaining with
  | none => simp
  | some n =>
    cases hb : x.begun with
    | false => rfl
    | true =>
      have hle : ¬n.toNat ≤ 1 := fun hle => h ⟨hb, n, hr, hle⟩
      simp [hle]

/-- The revision takes the pending width and period, if there are any, and leaves none pending (R87). -/
theorem revise_eq (x : TrainRec) (remaining : Option Half) :
    ({ x with remaining := remaining } : TrainRec).revise =
      { width := match x.pending with | some r => r.width | none => x.width
        period := match x.pending with | some r => r.period | none => x.period
        remaining := remaining, pending := none, begun := x.begun } := by
  cases x with
  | mk width period count pending begun => cases pending <;> rfl

/-! ### A train that ends, and one that goes on -/

section Normal

variable {s : State} {l : LineNo} (hn : s.groupNormal (groupOf l) = true)
include hn

theorem endTrain_due (i : SlotNo) (o : Order) (reason : EndReason) :
    s.endTrain .due i o l reason =
      ((s.dueCommand l .deassert).removeOrder i).toldEnded (s.handle i) o reason s.tb.t := by
  rw [State.endTrain, if_pos hn, ended_eq_toldEnded, (edgeCommand_frame s .due l .deassert).removeOrder_tb]
  rfl

theorem widthStep_due (i : SlotNo) (o : Order) (x : TrainRec) :
    s.widthStep .due i o l x =
      ((s.dueCommand l (if x.width = 0 then .deassert else .assert)).placeOrder i
        { o with
          body := .train l { x with begun := true }
          started := true
          state := if x.width = 0 ∨ x.width = x.period then .scheduled (s.tb.t + x.period.setWidth 32) .leading
            else .scheduled (s.tb.t + x.width.setWidth 32) .trailing }).toldFired (s.handle i) o s.tb.t := by
  rw [State.widthStep, if_pos hn, fired_eq_toldFired _ (by decide), (edgeCommand_frame s .due l _).placeOrder_tb]
  rfl

end Normal

/-! ### FIRING -/

section OneTrain

variable {s : State} {i : SlotNo} {o : Order} {l : LineNo} {x : TrainRec} {e : Time} (h : s.onlyDue i o)
  (hb : o.body = .train l x)
include h hb

theorem exec_firing_train_leading (hs : o.state = .scheduled e .leading) :
    exec .firing s = .next (s.periodStart .due i o l x) := by
  rw [exec_firing_onlyDue h, State.fireEdge, hb, hs]

theorem exec_firing_train_trailing (hs : o.state = .scheduled e .trailing) :
    exec .firing s = .next (s.trainTrailing .due i o l x) := by
  rw [exec_firing_onlyDue h, State.fireEdge, hb, hs]

end OneTrain

/-- Settles O38: a period start ends the train where its count is exhausted or its ending is yes, and otherwise makes
its width step with the values in force. -/
theorem firingTrain : Obligations.FiringTrain := by
  intro s i o l x e h hg hb handle exhausted width period x' ended
  have hn : s.groupNormal (groupOf l) = true := by simpa [State.groupNormal] using hg
  refine ⟨fun hs => ?leading, exec_firing_train_trailing h hb⟩
  case leading =>
    rw [exec_firing_train_leading h hb hs, State.periodStart]
    refine ⟨fun hx => ?exhausted, fun hx he => ?ending, fun hx he => ?width⟩
    case exhausted =>
      rw [countStep_exhausted hx]
      exact congrArg _ (endTrain_due hn i o .complete)
    case ending =>
      rw [countStep_counts hx]
      dsimp only
      rw [if_pos he]
      exact congrArg _ (endTrain_due hn i o .cancelled)
    case width =>
      rw [countStep_counts hx]
      dsimp only
      rw [if_neg (by simp [he]), revise_eq]
      exact congrArg _ (widthStep_due hn i o _)

end Sys2Proof.Machine
end

section
/-! REVISE: what stages or applies a revision of a train, and what refuses it (R93, R94). -/

namespace Sys2Proof.Machine

/-! ### The live order of a handle (R56) -/

section LiveOrder

variable {s : State} {p : StationNo} {i : SlotNo} {g : Byte}

theorem liveOrder_of_live {o : Order} (ho : s.order i = some o) (hg : (s.slot i).generation = g)
    (hp : o.station = p) : s.liveOrder p i g = some o := by
  simp only [State.liveOrder, ho, if_pos (And.intro hg hp)]

theorem liveOrder_of_not_live (h : ∀ o, s.order i = some o → ¬((s.slot i).generation = g ∧ o.station = p)) :
    s.liveOrder p i g = none := by
  unfold State.liveOrder
  cases ho : s.order i with
  | none => rfl
  | some o => exact if_neg (h o ho)

end LiveOrder

/-! ### The checks -/

/-- The new period lies between 2 and the horizon, and the new width does not exceed it (R93). -/
def RequestFrame.revisionInRange (f : RequestFrame) (horizon : Nat) : Prop :=
  2 ≤ (f.span 5).toNat ∧ (f.span 5).toNat ≤ horizon ∧ (f.span 2).toNat ≤ (f.span 5).toNat

section Checks

variable {p : StationNo} {s : State} {f : RequestFrame}

theorem reviseChecks_dequeue_leased (p : StationNo) (s : State) (f : RequestFrame) :
    reviseChecks p f ((s.dequeue p).leased p) = reviseChecks p f s := rfl

theorem reviseChecks_badSlot (h : 128 ≤ (f.at 0).toNat) : reviseChecks p f s = .error .badValue := by
  simp only [reviseChecks, inRange_of_le h]

variable {i : SlotNo} (hi : (f.at 0).toNat = i.val)
include hi

theorem reviseChecks_unknownOrder
    (h : ∀ o, s.order i = some o → ¬((s.slot i).generation = f.at 1 ∧ o.station = p)) :
    reviseChecks p f s = .error .unknownOrder := by
  simp only [reviseChecks, inRange_of_toNat hi, liveOrder_of_not_live h]

variable {o : Order} (ho : s.liveOrder p i (f.at 1) = some o)
include ho

theorem reviseChecks_notPeriodic (hb : ∀ l x, o.body ≠ .train l x) :
    reviseChecks p f s = .error .notPeriodic := by
  simp only [reviseChecks, inRange_of_toNat hi, ho]
  cases hk : o.body with
  | train l x => exact absurd hk (hb l x)
  | _ => rfl

variable {l : LineNo} {x : TrainRec} (hb : o.body = .train l x)
include hb

theorem reviseChecks_ending (he : o.ending = true) : reviseChecks p f s = .error .ending := by
  simp only [reviseChecks, inRange_of_toNat hi, ho, hb, he, if_true]

variable (he : o.ending = false)
include he

theorem reviseChecks_badRevision (hbad : ¬f.revisionInRange s.horizon) :
    reviseChecks p f s = .error .badValue := by
  simp only [reviseChecks, inRange_of_toNat hi, ho, hb, he, Bool.false_eq_true, if_false]
  exact if_neg hbad

theorem reviseChecks_ok (hgood : f.revisionInRange s.horizon) : reviseChecks p f s = .ok (i, o, l, x) := by
  simp only [reviseChecks, inRange_of_toNat hi, ho, hb, he, Bool.false_eq_true, if_false]
  exact if_pos hgood

end Checks

/-! ### The taking -/

section Revise

variable {p : StationNo} {s : State} {f : RequestFrame} (h : s.admits p f .revise)
include h

theorem exec_revise_refused {outcome : ReplyCode} (hr : reviseChecks p f s = .error outcome) :
    exec (.revise p) s = .next ((s.leased p).answered p f outcome []) := by
  rw [← reviseChecks_dequeue_leased] at hr
  refine congrArg _ (take_admitted_refused (owner := reviseOwner) h (by decide) (rowOf_of_request h.2.1) ?_)
  simp only [reviseOwner, hr]

/-- A REVISE whose owner rewrites the order in its slot. -/
theorem exec_revise_rewrites {i : SlotNo} {o : Order} {payload : List Byte}
    (ho : reviseOwner p f ((s.dequeue p).leased p) =
      { state := ((s.dequeue p).leased p).setOrder i o, outcome := .ok, payload := payload }) :
    exec (.revise p) s = .next (((s.leased p).setOrder i o).answered p f .ok payload) :=
  congrArg _ ((take_admitted_eq (owner := reviseOwner) h (by decide) (rowOf_of_request h.2.1) ho).trans
    (replied_of_ports (s := s) (by rfl) (by rfl) f .ok payload))

variable {i : SlotNo} {o : Order} {l : LineNo} {x : TrainRec} (hc : reviseChecks p f s = .ok (i, o, l, x))
include hc

theorem exec_revise_scheduled {e : Time} {ph : Phase} (hs : o.state = .scheduled e ph) :
    exec (.revise p) s = .next (((s.leased p).setOrder i
      { o with body := .train l { x with pending := some ⟨f.span 2, f.span 5⟩ } }).answered p f .ok [0]) := by
  rw [← reviseChecks_dequeue_leased] at hc
  refine exec_revise_rewrites h ?_
  simp only [reviseOwner, hc, hs]

theorem exec_revise_armed (hs : o.state = .armed) :
    exec (.revise p) s = .next (((s.leased p).setOrder i
      { o with body := .train l { x with width := f.span 2, period := f.span 5, pending := none } }).answered p f
        .ok [1]) := by
  rw [← reviseChecks_dequeue_leased] at hc
  refine exec_revise_rewrites h ?_
  simp only [reviseOwner, hc, hs]

end Revise

/-- Settles O32: what each check gives in its order, and what the owner then does by the state of the train. -/
theorem reviseStagesOrApplies : Obligations.ReviseStagesOrApplies := by
  intro p s f h refused good
  refine ⟨fun hbad => exec_revise_refused h (reviseChecks_badSlot hbad), fun i hi => ⟨?unknown, ?live⟩⟩
  case unknown => exact fun hu => exec_revise_refused h (reviseChecks_unknownOrder hi hu)
  case live =>
    intro o ho hg hp
    have hlive := liveOrder_of_live ho hg hp
    refine ⟨fun hk => exec_revise_refused h (reviseChecks_notPeriodic hi hlive hk), fun l x hb => ?_⟩
    refine ⟨fun he => exec_revise_refused h (reviseChecks_ending hi hlive hb he),
      fun he hbad => exec_revise_refused h (reviseChecks_badRevision hi hlive hb he hbad), ?_, ?_⟩
    · exact fun he hgood e ph hs => exec_revise_scheduled h (reviseChecks_ok hi hlive hb he hgood) hs
    · exact fun he hgood hs => exec_revise_armed h (reviseChecks_ok hi hlive hb he hgood) hs

end Sys2Proof.Machine
end

section
/-! FLUSH: the orders that it cancels, oldest first, and what refuses it (R100). -/

namespace Sys2Proof.Machine

/-! ### Cancellations -/

/-- A cancellation empties its own slot, whatever command it gives first, and leaves every other order (R97). -/
theorem cancelOrder_order (s : State) (i j : SlotNo) :
    (s.cancelOrder i).order j = if j = i then none else s.order j := by
  unfold State.cancelOrder
  cases ho : s.order i with
  | none =>
    by_cases hj : j = i
    · simp [hj, ho]
    · simp [hj]
  | some o =>
    dsimp only
    split
    · rw [removeOrder_order, (command_frame s _ .deassert).order]
    · rw [removeOrder_order]

theorem foldl_cancelOrder_order (l : List SlotNo) (s : State) (j : SlotNo) :
    (l.foldl State.cancelOrder s).order j = if j ∈ l then none else s.order j := by
  induction l generalizing s with
  | nil => simp
  | cons i l ih =>
    rw [List.foldl_cons, ih, cancelOrder_order]
    by_cases hj : j = i <;> simp [hj]

/-! ### The slots of a FLUSH -/

theorem slotsOn_eq (s : State) (p : StationNo) (m : LineMask) :
    s.slotsOn p m = (List.finRange 128).filter (s.orderIs (onMask p m)) := rfl

theorem flushSlots_perm (s : State) (p : StationNo) (m : LineMask) :
    (s.flushSlots p m).Perm ((List.finRange 128).filter (s.orderIs (onMask p m))) :=
  List.perm_insertionSort _ _

theorem mem_flushSlots {s : State} {p : StationNo} {m : LineMask} {i : SlotNo} :
    i ∈ s.flushSlots p m ↔ s.orderIs (onMask p m) i = true := by
  rw [(flushSlots_perm s p m).mem_iff]
  simp

/-- Ages are numbers, so that their order sorts every list. -/
theorem flushSlots_pairwise (s : State) (p : StationNo) (m : LineMask) :
    (s.flushSlots p m).Pairwise (fun i j => s.slotAge j ≤ s.slotAge i) := by
  have : Std.Total (fun i j : SlotNo => s.slotAge j ≤ s.slotAge i) := ⟨fun _ _ => Nat.le_total _ _⟩
  have : IsTrans SlotNo (fun i j => s.slotAge j ≤ s.slotAge i) := ⟨fun _ _ _ hij hjk => hjk.trans hij⟩
  exact List.pairwise_insertionSort _ _

theorem slotAge_of_order {s : State} {i : SlotNo} {o : Order} (h : s.order i = some o) :
    s.slotAge i = (s.postSeq - o.postSeq).toNat := by
  simp only [State.slotAge, h]
  rfl

/-! ### The taking -/

section Flush

variable {p : StationNo} {s : State} {f : RequestFrame}

/-- The owner's part of a FLUSH that names a line, by the state before the request was taken. -/
theorem flushOwner_nonempty (hm : f.half 0 ≠ 0) :
    flushOwner p f ((s.dequeue p).leased p) =
      if ¬∀ l, named (f.half 0) l = true → s.holds p l = true then refuse ((s.dequeue p).leased p) .notHolder
      else
        { state := (s.flushSlots p (f.half 0)).foldl State.cancelOrder ((s.dequeue p).leased p), outcome := .ok
          payload := [BitVec.ofNat 8 (s.countOrders (onMask p (f.half 0)))] } := by
  rw [flushOwner, if_neg hm]
  simp only [← holdsAll_iff, Bool.not_eq_true, ← Bool.not_eq_true']
  rfl

variable (h : s.admits p f .flush)
include h

theorem exec_flush_refused {outcome : ReplyCode}
    (ho : flushOwner p f ((s.dequeue p).leased p) = refuse ((s.dequeue p).leased p) outcome) :
    exec (.flush p) s = .next ((s.leased p).answered p f outcome []) :=
  congrArg _ (take_admitted_refused (owner := flushOwner) h (by decide) (rowOf_of_request h.2.1) ho)

theorem exec_flush_accepted (hm : f.half 0 ≠ 0) (hheld : ∀ l, named (f.half 0) l = true → s.holds p l = true) :
    exec (.flush p) s = .next
      (((s.flushSlots p (f.half 0)).foldl State.cancelOrder ((s.dequeue p).leased p)).replied p f .ok
        [BitVec.ofNat 8 (s.countOrders (onMask p (f.half 0)))]) := by
  refine congrArg _ (take_admitted_eq (owner := flushOwner) h (by decide) (rowOf_of_request h.2.1) ?_)
  rw [flushOwner_nonempty hm, if_neg (not_not_intro hheld)]

end Flush

/-- Settles O33: the slots of the requester's orders on the mask, sorted by age, are cancelled one after another. -/
theorem flushCancelsOldestFirst : Obligations.FlushCancelsOldestFirst := by
  intro p s f h q
  refine ⟨?empty, ?unheld, ?held⟩
  case empty =>
    intro hm
    exact exec_flush_refused h (if_pos hm)
  case unheld =>
    rintro hm ⟨l, hl, hfree⟩
    have hnot : ¬∀ l, named (f.half 0) l = true → s.holds p l = true := fun hall => by
      rw [hall l hl] at hfree
      cases hfree
    exact exec_flush_refused h (by rw [flushOwner_nonempty hm, if_pos hnot])
  case held =>
    intro hm hheld
    refine ⟨s.flushSlots p (f.half 0), flushSlots_perm s p _, ?_, _, exec_flush_accepted h hm hheld, rfl,
      fun i => ?_⟩
    · refine (flushSlots_pairwise s p _).imp fun {i j} hij a b ha hb => ?_
      rwa [slotAge_of_order ha, slotAge_of_order hb] at hij
    · rw [State.replied, State.setPort_order, foldl_cancelOrder_order, dequeue_leased_order,
        if_congr mem_flushSlots rfl rfl]

end Sys2Proof.Machine
end

section
/-! The trip of a group (R106) and the law of TRIPPED groups: what trips leave on each group, line and pair, and what
work only moves lines towards their safe levels (`Safer`). -/

namespace Sys2Proof.Machine

/-! ### The lines and the pairs of a group -/

theorem mem_groupLines {l : LineNo} {g : GroupNo} : l ∈ groupLines g ↔ groupOf l = g := by
  revert l g; decide

/-- Both lines of a pair lie in the pair's group (02 section 2.3). -/
theorem groupOfPair_pairOf (l : LineNo) : groupOfPair (pairOf l) = groupOf l := by
  simp only [groupOfPair, pairOf, groupOf, Fin.ext_iff]; omega

/-- A pair of a group has its primary among the group's lines. -/
theorem exists_mem_groupLines_pair {g : GroupNo} {k : PairNo} :
    (∃ l ∈ groupLines g, pairOf l = k) ↔ groupOfPair k = g := by
  constructor
  · rintro ⟨l, hl, rfl⟩
    rw [groupOfPair_pairOf]; exact mem_groupLines.mp hl
  · rintro rfl
    exact ⟨primary k, mem_groupLines.mpr (groupOf_primary k), pairOf_primary k⟩

/-! ### What a trip leaves (R106) -/

@[simp] theorem tripGroup_group (s : State) (g x : GroupNo) :
    (s.tripGroup g).group x = if x = g then { s.group g with state := .tripped } else s.group x := by
  have hf : OnlyLines (s.setGroup g { s.group g with state := .tripped }) (s.tripGroup g) :=
    foldl_frame OnlyLines.refl OnlyLines.trans toSafe_frame _ _
  rw [hf.group, State.setGroup_group]

theorem tripGroup_line (s : State) (g : GroupNo) (l : LineNo) :
    (s.tripGroup g).line l =
      if groupOf l = g then { s.line l with asserted := (s.line l).safe } else s.line l := by
  have hmem : (l ∈ groupLines g ∨ s.pairBound (pairOf l) = true ∧ ∃ x ∈ groupLines g, pairOf x = pairOf l) ↔
      groupOf l = g := by
    rw [exists_mem_groupLines_pair, mem_groupLines, groupOfPair_pairOf]
    exact or_iff_left_of_imp And.right
  exact (foldl_toSafe_line _ _ l).trans (if_congr hmem rfl rfl)

theorem tripGroup_pair (s : State) (g : GroupNo) (k : PairNo) :
    (s.tripGroup g).pair k = if groupOfPair k = g ∧ s.pairBound k = true then
        { s.pair k with state := levelState (s.line (primary k)).safe (s.line (partner k)).safe }
      else s.pair k :=
  (foldl_toSafe_pair _ _ k).trans (if_congr (by rw [exists_mem_groupLines_pair]; exact and_comm) rfl rfl)

@[simp] theorem tripGroup_safe (s : State) (g : GroupNo) (l : LineNo) :
    ((s.tripGroup g).line l).safe = (s.line l).safe := by
  rw [tripGroup_line]; split <;> rfl

@[simp] theorem tripGroup_pairBound (s : State) (g : GroupNo) (k : PairNo) :
    (s.tripGroup g).pairBound k = s.pairBound k := by
  unfold State.pairBound
  rw [tripGroup_pair]
  split
  · rename_i h
    have hb := h.2
    unfold State.pairBound at hb
    rw [hb]
    simp
  · rfl

/-! ### The law of TRIPPED groups, group by group -/

/-- Every line of the group stands at its safe level, and no gap runs in it (R106). -/
def State.groupSafe (s : State) (g : GroupNo) : Prop :=
  (∀ l, groupOf l = g → (s.line l).asserted = (s.line l).safe) ∧
    ∀ k, groupOfPair k = g → (s.pair k).state.inGap = false

@[simp] theorem levelState_inGap (a b : Bool) : (levelState a b).inGap = false := by
  cases a <;> cases b <;> rfl

/-- A bound pair of a tripped group is set from its safe levels, and an UNBOUND one is in no gap. -/
theorem tripGroup_groupSafe (s : State) (g : GroupNo) : (s.tripGroup g).groupSafe g := by
  refine ⟨fun l hl => by rw [tripGroup_line, if_pos hl], fun k hk => ?_⟩
  rw [tripGroup_pair]
  by_cases hb : s.pairBound k = true
  · rw [if_pos ⟨hk, hb⟩, levelState_inGap]
  · rw [if_neg fun h => hb h.2]
    rw [pairBound_iff, not_not] at hb
    rw [hb]; rfl

/-! ### Work that only moves lines towards their safe levels -/

/-- Safe levels stand, a line moves only to its safe level, no gap starts, and a group becomes TRIPPED only with its
lines and pairs safe. -/
structure Safer (s t : State) : Prop where
  tripped : ∀ g, (t.group g).state = .tripped → (s.group g).state = .tripped ∨ t.groupSafe g
  safe : ∀ l, (t.line l).safe = (s.line l).safe
  asserted : ∀ l, (t.line l).asserted = (s.line l).asserted ∨ (t.line l).asserted = (s.line l).safe
  pair : ∀ k, (t.pair k).state = (s.pair k).state ∨ (t.pair k).state.inGap = false

/-- A group that is safe stays so. -/
theorem Safer.groupSafe {s t : State} (a : Safer s t) {g : GroupNo} (h : s.groupSafe g) : t.groupSafe g := by
  obtain ⟨hline, hgap⟩ := h
  refine ⟨fun l hl => ?_, fun k hk => ?_⟩
  · rw [a.safe]
    exact (a.asserted l).elim (fun e => e.trans (hline l hl)) id
  · exact (a.pair k).elim (fun e => by rw [e]; exact hgap k hk) id

/-- The law of TRIPPED groups is kept. -/
theorem Safer.trippedLaw {s t : State} (a : Safer s t) (h : s.trippedLaw) : t.trippedLaw := fun g hg =>
  (a.tripped g hg).elim (fun hs => a.groupSafe (h g hs)) id

theorem Safer.trans {s t u : State} (a : Safer s t) (b : Safer t u) : Safer s u where
  tripped g hg := (b.tripped g hg).elim (fun ht => (a.tripped g ht).imp_right b.groupSafe) .inr
  safe l := (b.safe l).trans (a.safe l)
  asserted l := (b.asserted l).elim (fun e => (a.asserted l).imp e.trans e.trans) fun e => .inr (e.trans (a.safe l))
  pair k := (b.pair k).elim (fun e => (a.pair k).imp e.trans fun h => by rwa [e]) .inr

/-- The group records stand, or change only in TRIPPED groups that become NORMAL. -/
theorem Safer.of_lines {s t : State} (hg : ∀ g, (t.group g).state = .tripped → (s.group g).state = .tripped)
    (hl : t.lines = s.lines) (hp : t.pairs = s.pairs) : Safer s t where
  tripped g h := .inl (hg g h)
  safe l := by simp only [State.line, hl]
  asserted l := .inl (by simp only [State.line, hl])
  pair k := .inl (by simp only [State.pair, hp])

/-- Lines, pairs and groups stand. -/
theorem Safer.of_same {s t : State} (hl : t.lines = s.lines) (hp : t.pairs = s.pairs) (hg : t.groups = s.groups) :
    Safer s t :=
  .of_lines (fun g h => by simpa only [State.group, hg] using h) hl hp

theorem Safer.refl (s : State) : Safer s s := .of_same rfl rfl rfl

theorem Safer.foldl {α : Type} {f : State → α → State} (step : ∀ s x, Safer s (f s x)) (l : List α) (s : State) :
    Safer s (l.foldl f s) := foldl_frame Safer.refl Safer.trans step l s

theorem OnlyAside.safer {s t : State} (h : OnlyAside s t) : Safer s t := by
  rw [OnlyAside] at h; rw [h]; exact .of_same rfl rfl rfl

theorem OnlyPorts.safer {s t : State} (h : OnlyPorts s t) : Safer s t := h.aside.safer

theorem OnlyLeases.safer {s t : State} (h : OnlyLeases s t) : Safer s t := by
  rw [h.1]; exact .of_same rfl rfl rfl

theorem safer_tripGroup (s : State) (g : GroupNo) : Safer s (s.tripGroup g) where
  tripped x hx := by
    by_cases e : x = g
    · subst e; exact .inr (tripGroup_groupSafe s x)
    · rw [tripGroup_group, if_neg e] at hx; exact .inl hx
  safe := tripGroup_safe s g
  asserted l := by
    rw [tripGroup_line]; split
    · exact .inr rfl
    · exact .inl rfl
  pair k := by
    rw [tripGroup_pair]; split
    · exact .inr (levelState_inGap _ _)
    · exact .inl rfl

/-! ### Claims -/

theorem Grants.safer {s t : State} (a : Grants s t) (hg : t.groups = s.groups) : Safer s t where
  tripped g h := .inl (by simpa only [State.group, hg] using h)
  safe l := (a.lines l).1
  asserted l := .inl (a.lines l).2
  pair k := .inl (by simp only [State.pair, a.pairs])

theorem safer_grantScan (s : State) : Safer s s.grantScan := (grants_grantScan s).safer (grantScan_frame s).groups

theorem safer_grant (s : State) (c : Claim) : Safer s (s.grant c) where
  tripped g h := .inl (by rwa [(grant_frame s c).group] at h)
  safe l := by rw [grant_line]; split <;> rfl
  asserted l := .inl (by rw [grant_line]; split <;> rfl)
  pair k := .inl (by rw [grant_eq]; rfl)

/-- A claim given up under SAFE sets its lines and the bound pairs among them to safe (R30, R49). -/
theorem safer_giveUp (s : State) (c : Claim) (a : LineAction) : Safer s (s.giveUp c a) where
  tripped g h := .inl (by rwa [(giveUp_frame s c a).group] at h)
  safe l := by rw [giveUp_line]
  asserted l := by
    rw [giveUp_line]; dsimp only; split
    · exact .inr rfl
    · exact .inl rfl
  pair k := by
    rw [giveUp_pair]; split
    · exact .inr (levelState_inGap _ _)
    · exact .inl rfl

theorem safer_waiting (s : State) (l : List WaitingClaim) : Safer s { s with waiting := l } := .of_same rfl rfl rfl

theorem safer_removeOrders (s : State) (l : List SlotNo) : Safer s (s.removeOrders l) :=
  .foldl (f := State.removeOrder) (fun _ _ => .of_same rfl rfl rfl) l s

theorem safer_expireWaits (s : State) : Safer s s.expireWaits := by
  unfold State.expireWaits
  split
  · exact .refl s
  · exact ((safer_waiting s _).trans (.foldl (fun _ _ => (appendNotice_frame _ _ _).safer) _ _)).trans
      (safer_grantScan _)

/-! ### Teardowns and the timebase -/

theorem safer_setTb (s : State) (b : Timebase) : Safer s { s with tb := b } := .of_same rfl rfl rfl

theorem safer_claimTeardown (s : State) (n : StationNo) : Safer s (s.claimTeardown n) := by
  have hrevoke : Safer s (s.revoke (s.held.filter fun c => c.station == n)) :=
    .foldl (fun u (c : Claim) => safer_giveUp u c c.loss) _ s
  exact (hrevoke.trans (safer_waiting _ _)).trans (safer_grantScan _)

theorem safer_teardown (s : State) (n : StationNo) (lapsed : Bool) : Safer s (s.teardown n lapsed) := by
  have hsession : Safer s (s.endSession n lapsed) := .of_same rfl rfl rfl
  have horders : ∀ u : State, Safer u (u.orderTeardown n) := fun u =>
    (safer_removeOrders u _).trans (.of_same rfl rfl rfl)
  have hcapture : ∀ u : State, Safer u (u.captureTeardown n) := fun u => .of_same rfl rfl rfl
  have hdisarm : ∀ u : State, Safer u (u.disarm n) := fun u => by
    unfold State.disarm; split
    · exact safer_setTb u _
    · exact .refl u
  exact (((hsession.trans (horders _)).trans (safer_claimTeardown _ n)).trans (hcapture _)).trans (hdisarm _)

theorem safer_lapse (s : State) (n : StationNo) : Safer s (s.lapse n) := by
  unfold State.lapse; split
  · exact (safer_teardown s n true).trans (portTeardown_frame _ n false).safer
  · exact .refl s

theorem safer_breakSession (s : State) (p : StationNo) : Safer s (s.breakSession p) := by
  unfold State.breakSession
  split
  · exact (safer_teardown s p false).trans (portTeardown_frame _ p false).safer
  · exact .of_same rfl rfl rfl
  · exact .refl s

theorem safer_markEdge (s : State) : Safer s s.markEdge := by
  unfold State.markEdge; split
  · exact (safer_setTb s _).trans (appendNotices_frame _ _ _).safer
  · exact .refl s

theorem safer_armExpiry (s : State) : Safer s s.armExpiry := by
  unfold State.armExpiry
  split
  · dsimp only
    split
    · exact (safer_setTb s _).trans (appendNotice_frame _ _ _).safer
    · exact safer_setTb s _
  · exact .refl s

theorem safer_halt (s : State) : Safer s s.halt := by
  unfold State.halt; split
  · exact .of_same rfl rfl rfl
  · exact safer_setTb s _
  · exact .refl s

end Sys2Proof.Machine
end

section
/-! The law of TRIPPED groups (R106), kept by every step. Beyond the work that only moves lines towards their safe levels
(`Safer`) there are the commands and gaps, which act in NORMAL groups alone, SHAPE, which moves the safe levels
themselves, and PAIR BIND. -/

namespace Sys2Proof.Machine

/-! ### Work in one group -/

/-- Only lines and pairs of group `g` differ, and no group record. -/
structure OnlyInGroup (g : GroupNo) (s t : State) : Prop where
  groups : t.groups = s.groups
  line : ∀ l, groupOf l ≠ g → t.line l = s.line l
  pair : ∀ k, groupOfPair k ≠ g → t.pair k = s.pair k

theorem OnlyInGroup.refl (g : GroupNo) (s : State) : OnlyInGroup g s s := ⟨rfl, fun _ _ => rfl, fun _ _ => rfl⟩

theorem OnlyInGroup.trans {g : GroupNo} {s t u : State} (a : OnlyInGroup g s t) (b : OnlyInGroup g t u) :
    OnlyInGroup g s u where
  groups := b.groups.trans a.groups
  line l h := (b.line l h).trans (a.line l h)
  pair k h := (b.pair k h).trans (a.pair k h)

/-- Work in a NORMAL group keeps the law. -/
theorem OnlyInGroup.trippedLaw {g : GroupNo} {s t : State} (a : OnlyInGroup g s t)
    (hn : (s.group g).state = .normal) (h : s.trippedLaw) : t.trippedLaw := by
  intro x hx
  simp only [State.group, a.groups] at hx
  have hne : x ≠ g := by
    rintro rfl
    exact absurd (hx.symm.trans hn) nofun
  obtain ⟨hline, hgap⟩ := h x hx
  exact ⟨fun l hl => by rw [a.line l (by rwa [hl])]; exact hline l hl,
    fun k hk => by rw [a.pair k (by rwa [hk])]; exact hgap k hk⟩

theorem onlyInGroup_setAsserted {g : GroupNo} (s : State) {l : LineNo} (h : groupOf l = g) (a : Bool) :
    OnlyInGroup g s (s.setAsserted l a) :=
  { OnlyInGroup.refl g s with
    groups := rfl
    line := fun x hx => by rw [setAsserted_line, if_neg fun e => hx (by rw [e, h])] }

theorem onlyInGroup_setPairState (s : State) (k : PairNo) (x : PairState) :
    OnlyInGroup (groupOfPair k) s (s.setPairState k x) :=
  { OnlyInGroup.refl _ s with
    groups := rfl
    pair := fun j hj => by rw [setPairState_pair, if_neg fun e => hj (by rw [e])] }

theorem onlyInGroup_turnToPrimary (s : State) (k : PairNo) : OnlyInGroup (groupOfPair k) s (s.turnToPrimary k) := by
  have hoff := onlyInGroup_setAsserted s (groupOf_partner k) false
  unfold State.turnToPrimary
  split
  · exact (hoff.trans (onlyInGroup_setAsserted _ (groupOf_primary k) true)).trans (onlyInGroup_setPairState _ k _)
  · exact hoff.trans (onlyInGroup_setPairState _ k _)

theorem onlyInGroup_turnToPartner (s : State) (k : PairNo) : OnlyInGroup (groupOfPair k) s (s.turnToPartner k) := by
  have hoff := onlyInGroup_setAsserted s (groupOf_primary k) false
  unfold State.turnToPartner
  split
  · exact (hoff.trans (onlyInGroup_setAsserted _ (groupOf_partner k) true)).trans (onlyInGroup_setPairState _ k _)
  · exact hoff.trans (onlyInGroup_setPairState _ k _)

/-- A command reaches lines and pairs of its line's group alone (R20, R21). -/
theorem onlyInGroup_command (s : State) (l : LineNo) (c : LineCommand) : OnlyInGroup (groupOf l) s (s.command l c) := by
  rcases command_cases s l c with e | ⟨-, a, e⟩ | ⟨-, -, e⟩ | ⟨-, -, e⟩ <;> rw [e]
  · exact .refl _ s
  · exact onlyInGroup_setAsserted s rfl a
  · rw [← groupOfPair_pairOf]; exact onlyInGroup_turnToPrimary s _
  · rw [← groupOfPair_pairOf]; exact onlyInGroup_turnToPartner s _

/-- A gap completion reaches its pair and the lines of it alone (R25). -/
theorem onlyInGroup_completeGap (s : State) (k : PairNo) : OnlyInGroup (groupOfPair k) s (s.completeGap k) := by
  unfold State.completeGap
  split
  · split
    · exact (onlyInGroup_setAsserted s (groupOf_primary k) true).trans (onlyInGroup_setPairState _ k _)
    · exact .refl _ s
  · split
    · exact (onlyInGroup_setAsserted s (groupOf_partner k) true).trans (onlyInGroup_setPairState _ k _)
    · exact .refl _ s
  all_goals exact .refl _ s

/-- Without a gap there is none to complete (R25). -/
theorem completeGap_of_not_inGap {s : State} {k : PairNo} (h : (s.pair k).state.inGap = false) :
    s.completeGap k = s := by
  unfold State.completeGap
  split
  · rename_i e; rw [e] at h; cases h
  · rename_i e; rw [e] at h; cases h
  all_goals rfl

/-! ### The part's own work -/

/-- The law of TRIPPED groups holds after the work if it held before. -/
def KeepsTripped (s t : State) : Prop := s.trippedLaw → t.trippedLaw

theorem keepsTripped_command (s : State) (l : LineNo) (c : LineCommand) : KeepsTripped s (s.command l c) := by
  intro h
  cases hg : (s.group (groupOf l)).state with
  | normal => exact (onlyInGroup_command s l c).trippedLaw hg h
  | tripped => rwa [command_tripped hg]

theorem keepsTripped_completeGap (s : State) (k : PairNo) : KeepsTripped s (s.completeGap k) := by
  intro h
  cases hg : (s.group (groupOfPair k)).state with
  | normal => exact (onlyInGroup_completeGap s k).trippedLaw hg h
  | tripped => rwa [completeGap_of_not_inGap ((h _ hg).2 k rfl)]

/-- The part's work keeps the law of TRIPPED groups. -/
theorem keepsTripped_work : WorkRelation KeepsTripped where
  refl _ h := h
  trans a b h := b (a h)
  aside h := h.safer.trippedLaw
  command _ _ c := keepsTripped_command _ _ c
  completeGap := keepsTripped_completeGap
  tripGroup s g := (safer_tripGroup s g).trippedLaw
  freeSlot s i x _ := (Safer.of_same (t := s.setSlot i x) rfl rfl rfl).trippedLaw
  rewrite {_ t i _ o} h _ _ hs := (Safer.of_same (t := t.setOrder i o) rfl rfl rfl).trippedLaw (h hs)

/-! ### Lines and pairs -/

/-- SHAPE sets the lines of a TRIPPED group whose safe level it changes to their new safe levels (R32). -/
theorem trippedLaw_shape {s : State} (h : s.trippedLaw) (m : LineMask) (x : ShapeForm) : (s.shape m x).trippedLaw := by
  intro g hg
  rw [(shape_frame s m x).group] at hg
  obtain ⟨hline, hgap⟩ := h g hg
  refine ⟨fun l hl => ?_, fun k hk => ?_⟩
  · rw [shape_line]
    dsimp only
    split
    · rfl
    · rename_i hn
      simp only [State.resafes, hl, hg, beq_self_eq_true, Bool.true_and, Bool.or_eq_true, bne_iff_ne, not_or,
        not_not] at hn
      rw [hn.2]; exact hline l hl
  · rw [shape_pair]
    split
    · exact levelState_inGap _ _
    · exact hgap k hk

theorem trippedLaw_setFromLevels {s : State} (h : s.trippedLaw) (k : PairNo) : (s.setFromLevels k).trippedLaw :=
  Safer.trippedLaw (s := s)
    { Safer.refl s with
      tripped := fun _ hg => .inl hg
      pair := fun j => by
        rw [State.setFromLevels, setPairState_pair]
        split
        · exact .inr (levelState_inGap _ _)
        · exact .inl rfl } h

/-- BIND deasserts the partner where both lines are ASSERTED, and so not in a TRIPPED group: there both safe levels would
be ASSERTED too, which the checks of PAIR refuse (R28, R29). -/
theorem trippedLaw_bindPair {s : State} (h : s.trippedLaw) {k : PairNo} (gap : Byte)
    (hs : ¬((s.line (primary k)).safe = true ∧ (s.line (partner k)).safe = true)) : (s.bindPair k gap).trippedLaw := by
  have hgap : Safer s (s.setPair k { s.pair k with gap := gap }) :=
    { Safer.refl s with
      tripped := fun _ hg => .inl hg
      pair := fun j => .inl (by
        rw [State.setPair_pair]; split
        · rename_i e; rw [e]
        · rfl) }
  have h' := hgap.trippedLaw h
  unfold State.bindPair
  dsimp only
  split
  · exact h'
  · refine trippedLaw_setFromLevels ?_ k
    split
    · rename_i hboth
      rw [Bool.and_eq_true] at hboth
      refine (onlyInGroup_setAsserted _ (groupOf_partner k) false).trippedLaw ?_ h'
      cases hg : (s.group (groupOfPair k)).state with
      | normal => exact hg
      | tripped =>
        have hline := (h _ hg).1
        exact absurd ⟨(hline _ (groupOf_primary k)) ▸ hboth.1, (hline _ (groupOf_partner k)) ▸ hboth.2⟩ hs
    · exact h'

/-! ### The owners -/

section Owners

variable (p : StationNo) (f : RequestFrame) (s : State)

theorem safer_bindOwner : Safer s (bindOwner p f s).state := by
  unfold bindOwner
  split
  · exact .refl s
  · split
    · exact .refl s
    · exact .of_same rfl rfl rfl

theorem safer_portStatusOwner : Safer s (portStatusOwner p f s).state := by
  unfold portStatusOwner
  split
  · dsimp only
    split
    · exact (setPort_frame s p _).safer
    · exact .refl s
  · exact .refl s

theorem safer_timeStartImmediateOwner : Safer s (timeStartImmediateOwner p f s).state := by
  unfold timeStartImmediateOwner
  split
  · exact .refl s
  · exact (safer_setTb s _).trans (appendNotices_frame _ _ _).safer

theorem safer_timeStartOnMarkOwner : Safer s (timeStartOnMarkOwner p f s).state := by
  unfold timeStartOnMarkOwner
  split
  · exact .refl s
  · exact safer_setTb s _

theorem safer_timeStopOwner : Safer s (timeStopOwner p f s).state := by
  unfold timeStopOwner
  split
  · exact .refl s
  · exact safer_halt s

theorem safer_claimOwner : Safer s (claimOwner p f s).state := by
  unfold claimOwner
  split
  · exact .refl s
  · split
    · exact Safer.trans (t := { s with claimCounter := s.nextClaimId }) (.of_same rfl rfl rfl) (safer_grant _ _)
    · split
      · exact .refl s
      · split
        · exact .refl s
        · exact .of_same rfl rfl rfl

theorem safer_releaseOwner : Safer s (releaseOwner p f s).state := by
  unfold releaseOwner
  split
  · exact .refl s
  · split
    · exact ((safer_removeOrders s _).trans (safer_giveUp _ _ _)).trans (safer_grantScan _)
    · split
      · exact (safer_waiting s _).trans (safer_grantScan _)
      · exact .refl s

theorem safer_pairUnbindOwner : Safer s (pairUnbindOwner p f s).state := by
  unfold pairUnbindOwner
  split
  · exact .refl s
  · rename_i k _
    exact { Safer.refl s with
      tripped := fun _ hg => .inl hg
      pair := fun j => by
        dsimp only
        rw [State.unbindPair, setPairState_pair]; split
        · exact .inr rfl
        · exact .inl rfl }

theorem safer_reviseOwner : Safer s (reviseOwner p f s).state := by
  unfold reviseOwner
  split
  · exact .refl s
  · split <;> exact .of_same rfl rfl rfl

theorem safer_guardMapOwner : Safer s (guardMapOwner p f s).state := by
  unfold guardMapOwner
  split
  · exact .refl s
  · rename_i g m _
    have hmap : Safer s (s.setGroup g { s.group g with map := m }) := .of_lines (fun x hx => by
      rw [State.setGroup_group] at hx
      split at hx
      · rename_i e; rw [e]; exact hx
      · exact hx) rfl rfl
    unfold State.remap
    dsimp only
    split
    · split
      · exact (hmap.trans (safer_tripGroup _ g)).trans (tripNotices_frame _ g _).safer
      · exact hmap
    · exact hmap

theorem safer_rearmOwner : Safer s (rearmOwner p f s).state := by
  have hnormal : ∀ g, Safer s (s.setGroup g { s.group g with state := .normal }) := fun g =>
    .of_lines (fun x hx => by
      rw [State.setGroup_group] at hx
      split at hx
      · cases hx
      · exact hx) rfl rfl
  unfold rearmOwner
  split
  · exact .refl s
  · split
    · exact .refl s
    · split
      · exact .refl s
      · split
        · exact .refl s
        · exact (hnormal _).trans (appendNotices_frame _ _ _).safer

theorem safer_subscribeOwner : Safer s (subscribeOwner p f s).state := by
  unfold subscribeOwner
  split
  · exact .refl s
  · split
    · split
      · exact .of_same rfl rfl rfl
      · split
        · exact .of_same rfl rfl rfl
        · exact .refl s
    · exact .of_same rfl rfl rfl

theorem safer_unsubscribeOwner : Safer s (unsubscribeOwner p f s).state := by
  unfold unsubscribeOwner
  split
  · exact .refl s
  · split
    · exact .refl s
    · exact (safer_removeOrders s _).trans (.of_same rfl rfl rfl)

theorem safer_readCapturesOwner : Safer s (readCapturesOwner p f s).state := by
  unfold readCapturesOwner
  split
  · exact .of_same rfl rfl rfl
  · exact .refl s

variable {s} (h : s.trippedLaw)
include h

theorem trippedLaw_shapeOwner : (shapeOwner p f s).state.trippedLaw := by
  unfold shapeOwner
  split
  · exact h
  · split
    · exact h
    · split
      · exact h
      · split
        · exact h
        · exact trippedLaw_shape h _ _

theorem trippedLaw_pairBindOwner (h1 : f.at 1 ≠ 0) : (pairBindOwner p f s).state.trippedLaw := by
  unfold pairBindOwner
  split
  · exact h
  · rename_i hc
    obtain ⟨-, -, hop, hs⟩ := pairChecks_ok hc
    exact trippedLaw_bindPair h _ (hs (hop.resolve_left h1))

/-- A late POST with FIRE makes edges; any other only writes its order (R67 to R70). -/
theorem trippedLaw_postOwner : (postOwner p f s).state.trippedLaw := by
  have hwritten : ∀ t : State, t.lines = s.lines → t.pairs = s.pairs → t.groups = s.groups → t.trippedLaw :=
    fun t hl hp hg => (Safer.of_same hl hp hg).trippedLaw h
  unfold postOwner
  split
  · exact h
  · unfold postArmed
    split
    · exact h
    · split
      · exact h
      · exact hwritten _ rfl rfl rfl
  · split
    · unfold postFuture; split
      · exact h
      · exact hwritten _ rfl rfl rfl
    · exact h
    · exact h
    · unfold postLateFire; split
      · exact h
      · refine keepsTripped_work.fireEdge (order_setOrder _ _ _) (SameTask.refl _) _ ?_
        exact (Safer.of_same (s := s.fireDue) rfl rfl rfl).trippedLaw (keepsTripped_work.fireDue s h)

theorem trippedLaw_cancelNowOwner : (cancelNowOwner p f s).state.trippedLaw := by
  unfold cancelNowOwner
  split
  · exact h
  · exact keepsTripped_work.cancelOrder s _ h

theorem trippedLaw_cancelAtEndOwner : (cancelAtEndOwner p f s).state.trippedLaw := by
  unfold cancelAtEndOwner
  split
  · exact h
  · split
    · exact (Safer.of_same (s := s) rfl rfl rfl).trippedLaw h
    · exact keepsTripped_work.cancelOrder s _ h

theorem trippedLaw_flushOwner : (flushOwner p f s).state.trippedLaw := by
  unfold flushOwner
  split
  · exact h
  · split
    · exact h
    · exact keepsTripped_work.foldl keepsTripped_work.cancelOrder _ s h

end Owners

/-! ### Every step -/

/-- The power-on values meet the law: every line stands at its safe level, and no pair is bound (R35). -/
theorem trippedLaw_powerOn {t : State} (hl : t.lines = Vector.replicate 16 LineRec.powerOn)
    (hp : t.pairs = Vector.replicate 8 PairUnit.powerOn) : t.trippedLaw := by
  have hline : ∀ l, t.line l = LineRec.powerOn := fun l => by simp [State.line, hl]
  have hpair : ∀ k, t.pair k = PairUnit.powerOn := fun k => by simp [State.pair, hp]
  exact fun g _ => ⟨fun l _ => by rw [hline]; rfl, fun k _ => by rw [hpair]; rfl⟩

/-- Every taking and every event keeps the law. -/
theorem trippedLaw_keptBySteps : KeptBySteps State.trippedLaw where
  leases a h := a.safer.trippedLaw h
  lapse s n h := (safer_lapse s n).trippedLaw h
  owner {c p row f s} hc hrow hf h := by
    cases c with
    | bind => exact (safer_bindOwner p f s).trippedLaw h
    | unbind => exact (safer_teardown s p false).trippedLaw h
    | portStatus => exact (safer_portStatusOwner p f s).trippedLaw h
    | timeStartImmediate => exact (safer_timeStartImmediateOwner p f s).trippedLaw h
    | timeStartOnMark => exact (safer_timeStartOnMarkOwner p f s).trippedLaw h
    | timeStop => exact (safer_timeStopOwner p f s).trippedLaw h
    | claim => exact (safer_claimOwner p f s).trippedLaw h
    | release => exact (safer_releaseOwner p f s).trippedLaw h
    | shape => exact trippedLaw_shapeOwner p f h
    | lineRead => show (lineReadOwner p f s).state.trippedLaw; unfold lineReadOwner; split <;> exact h
    | pairBind =>
      cases hc
      exact trippedLaw_pairBindOwner p f h (at_ne_of_row (request_of_rowOfEither hrow) hf (by decide) hrow)
    | pairUnbind => exact (safer_pairUnbindOwner p f s).trippedLaw h
    | post => exact trippedLaw_postOwner p f h
    | cancelNow => exact trippedLaw_cancelNowOwner p f h
    | cancelAtEnd => exact trippedLaw_cancelAtEndOwner p f h
    | revise => exact (safer_reviseOwner p f s).trippedLaw h
    | flush => exact trippedLaw_flushOwner p f h
    | orderRead => show (orderReadOwner p f s).state.trippedLaw; unfold orderReadOwner; split <;> exact h
    | guardMap => exact (safer_guardMapOwner p f s).trippedLaw h
    | rearm => exact (safer_rearmOwner p f s).trippedLaw h
    | subscribe => exact (safer_subscribeOwner p f s).trippedLaw h
    | unsubscribe => exact (safer_unsubscribeOwner p f s).trippedLaw h
    | readCaptures => exact (safer_readCapturesOwner p f s).trippedLaw h
    | _ => exact h
  pending s l h := (Safer.of_same (t := s.setPending l) rfl rfl rfl).trippedLaw h
  fireDue := keepsTripped_work.fireDue
  completeGap := keepsTripped_completeGap
  sample := keepsTripped_work.sample
  activate := keepsTripped_work.activate
  setGuard := keepsTripped_work.setGuard
  expireWaits s h := (safer_expireWaits s).trippedLaw h
  markEdge s h := (safer_markEdge s).trippedLaw h
  armExpiry s h := (safer_armExpiry s).trippedLaw h
  advance s h := (safer_setTb s _).trippedLaw h
  leaseUnitEnds s h := (Safer.of_same (t := s.leaseUnitEnds) rfl rfl rfl).trippedLaw h
  armUnitEnds s h := (safer_setTb s _).trippedLaw h
  breakSession s p h := (safer_breakSession s p).trippedLaw h
  inPowerOnReset _ _ := trippedLaw_powerOn rfl rfl
  powerOn _ _ _ _ _ _ := trippedLaw_powerOn rfl rfl

/-- Settles O59: every taking and every event keeps the law by itself. -/
theorem stepKeepsTrippedGroupsSafe : Obligations.StepKeepsTrippedGroupsSafe := by
  intro s t hs h
  exact trippedLaw_keptBySteps.step h hs

end Sys2Proof.Machine
end

section
/-! The guard unit: the notices of trips (R107), the byte of GUARD_MAP that names no map (R103, R104), and REARM (R111,
R112). -/

namespace Sys2Proof.Machine

/-! ### Maps and holders -/

/-- An input that the map names is ACTIVE (R104, R111). -/
theorem activeMapped_isSome_iff (s : State) (m : GuardMap) :
    (s.activeMapped m).isSome = true ↔
      (s.guardA = true ∧ (m = .ga ∨ m = .either)) ∨ (s.guardB = true ∧ (m = .gb ∨ m = .either)) := by
  have hga : mapNames m .ga = true ↔ m = .ga ∨ m = .either := by cases m <;> simp [mapNames]
  have hgb : mapNames m .gb = true ↔ m = .gb ∨ m = .either := by cases m <;> simp [mapNames]
  rw [← hga, ← hgb]
  unfold State.activeMapped State.guardActive
  cases mapNames m .ga <;> cases mapNames m .gb <;> cases s.guardA <;> cases s.guardB <;> simp

theorem holdsInGroup_iff (s : State) (n : StationNo) (g : GroupNo) :
    s.holdsInGroup n g = true ↔ ∃ l, groupOf l = g ∧ s.holds n l = true := by
  simp only [State.holdsInGroup, List.any_eq_true, mem_groupLines]

/-- Who holds a line is read from its holder field and the HELD claims. -/
theorem holdsInGroup_congr {s t : State} (hl : ∀ l, (t.line l).holder = (s.line l).holder) (hh : t.held = s.held)
    (n : StationNo) (g : GroupNo) : t.holdsInGroup n g = s.holdsInGroup n g := by
  have hholds : t.holds n = s.holds n :=
    funext fun l => by simp only [State.holds, State.holderStation, State.heldClaim, hl, hh]
  simp only [State.holdsInGroup, hholds]

/-! ### Notices for several stations -/

/-- One notice at the ports of the stations selected, and then the others. -/
theorem portTold_appendNotices (s : State) (who : StationNo → Bool) (n : StationNo) (x : Notice) (xs : List Notice) :
    (s.appendNotices who x).portTold n xs = s.portTold n (if who n then x :: xs else xs) := by
  have hf := appendNotices_frame s who x
  have hb : (s.appendNotices who x).isBound n = s.isBound n := by simp only [State.isBound, hf.station]
  have hn : (s.appendNotices who x).sessionByte n = s.sessionByte n := by simp only [State.sessionByte, hf.station]
  unfold State.portTold
  rw [hb, hn, appendNotices_port]
  cases s.isBound n <;> cases who n <;> rfl

/-- The TRIP notices of several groups, at each port in the order of the groups (R107). -/
theorem foldl_tripNotices_port (gs : List GroupNo) (i : GuardInput) (n : StationNo) (s : State) :
    (gs.foldl (fun u g => u.tripNotices g i) s).port n =
      s.portTold n ((gs.filter (s.holdsInGroup n)).map (fun g => .trip g i)) := by
  induction gs generalizing s with
  | nil => exact (portTold_nil s n).symm
  | cons g gs ih =>
    have hf := tripNotices_frame s g i
    have hholds : (s.tripNotices g i).holdsInGroup n = s.holdsInGroup n :=
      funext fun x => holdsInGroup_congr (fun l => by rw [hf.line]) hf.held n x
    rw [List.foldl_cons, ih, hholds, State.tripNotices, portTold_appendNotices, List.filter_cons]
    split <;> rfl

/-! ### GUARD_MAP -/

/-- The last branch of `GuardMap.ofByte` gives the map `GuardMap.none`, where R104 asks for no map at all. -/
theorem guardMap_ofByte_unnamed {b : Byte} (h : 4 ≤ b.toNat) : GuardMap.ofByte b = some .none := by
  revert b; decide

theorem replied_cachedOutcome (r : PortRec) (f : RequestFrame) (outcome : ReplyCode) (payload : List Byte) :
    (r.replied f outcome payload).replyCache.map Reply.outcome = some outcome := rfl

/-- GUARD_MAP of group 0 with map 4, which names no map (R172). -/
def unnamedMap : RequestFrame :=
  { sequence := 1, session := 1, code := RequestCode.guardMap.byte, payload := [0, 4] }

/-- Station 0 BOUND in session 1 on a part at its power-on values, with that request in its queue. -/
def unnamedMapAsked : State :=
  let s := State.reset.setStation 0 ⟨.bound, some 1, 1, some 100, some 100, 8⟩
  s.setPort 0 { s.port 0 with requests := [unnamedMap] }

theorem unnamedMapAsked_admits : unnamedMapAsked.admits 0 unnamedMap .guardMap := by decide +kernel

theorem guardMapChecks_unnamedMap :
    guardMapChecks unnamedMap ((unnamedMapAsked.dequeue 0).leased 0) = .ok (0, .none) := by
  have hmap : GuardMap.ofByte (unnamedMap.at 1) = some .none := guardMap_ofByte_unnamed (by decide)
  have hfree : (groupLines 0).all ((unnamedMapAsked.dequeue 0).leased 0).free = true := by decide +kernel
  have hgroup : inRange 4 (unnamedMap.at 0) = some (0 : GroupNo) := by decide
  simp only [guardMapChecks, hmap, hgroup, hfree, if_true]

/-- Refutes O40: byte 1 of 4, which names no guard map, is taken for the map NONE and the request accepted, where R103
and R104 have it refused BAD_VALUE. -/
theorem not_guardMapWritesMap : ¬ Obligations.GuardMapWritesMap := by
  intro h
  have hrefused := (h 0 unnamedMapAsked unnamedMap unnamedMapAsked_admits).1 (.inr (by decide))
  generalize hu : (unnamedMapAsked.dequeue 0).leased 0 = u
  have hok : guardMapOwner 0 unnamedMap u =
      { state := u.remap 0 .none, outcome := .ok
        payload := [((u.remap 0 .none).group 0).state.byte, ((u.remap 0 .none).group 0).map.byte] } := by
    rw [guardMapOwner, ← hu, guardMapChecks_unnamedMap]
  subst hu
  have haccepted := take_admitted_eq unnamedMapAsked_admits (by decide)
    (rowOf_of_request (c := .guardMap) (by decide)) hok
  have hsame := haccepted.symm.trans (Host.Outcome.next.inj hrefused)
  have hcache := congrArg (fun s : State => (s.port 0).replyCache.map Reply.outcome) hsame
  simp only [State.replied, State.answered, State.setPort_port, if_true] at hcache
  rw [PortRec.answered, replied_cachedOutcome, replied_cachedOutcome] at hcache
  cases hcache

/-! ### REARM -/

/-- Settles O41: the checks in their order; a group rearmed becomes NORMAL, and the other holders are told. -/
theorem rearmReturnsGroupToNormal : Obligations.RearmReturnsGroupToNormal := by
  intro p s f h
  have hrow := rowOf_of_request h.2.1
  refine ⟨fun hbad => congrArg _ (take_admitted_refused (owner := rearmOwner) h (by decide) hrow ?_), ?_⟩
  · simp only [rearmOwner, inRange_of_le hbad]
  intro g hg holder active
  have hholder : ∀ n, ((s.dequeue p).leased p).holdsInGroup n g = true ↔ holder n := fun n => holdsInGroup_iff s n g
  have hactive : (((s.dequeue p).leased p).activeMapped (((s.dequeue p).leased p).group g).map).isSome = true ↔
      active := activeMapped_isSome_iff s _
  generalize hu : (s.dequeue p).leased p = u at hholder hactive
  have hgroup : u.group g = s.group g := by rw [← hu]; rfl
  rw [hgroup] at hactive
  have howner : rearmOwner p f u =
      if ¬holder p then refuse u .notHolder
      else if (s.group g).state = .normal then { state := u, outcome := .ok, payload := [0] }
      else if active then refuse u .guardActive
      else { state := u.rearmGroup p g, outcome := .ok, payload := [0] } := by
    simp only [rearmOwner, inRange_of_toNat hg, State.groupNormal, Bool.not_eq_true', Bool.eq_false_iff, Ne, hholder,
      hactive, hgroup, beq_iff_eq]
    rfl
  refine ⟨fun hn => ?notHolder, fun hp hn => ?normal, fun hp ht ha => ?active, fun hp ht ha => ?rearmed⟩
  case notHolder =>
    subst hu
    exact congrArg _ (take_admitted_refused (owner := rearmOwner) h (by decide) hrow (howner.trans (if_pos hn)))
  all_goals rw [if_neg (not_not_intro hp)] at howner
  case normal =>
    subst hu
    exact congrArg _ (take_admitted_unchanged (owner := rearmOwner) h (by decide) hrow (howner.trans (if_pos hn)))
  all_goals rw [if_neg (by rw [ht]; exact nofun)] at howner
  case active =>
    subst hu
    exact congrArg _ (take_admitted_refused (owner := rearmOwner) h (by decide) hrow (howner.trans (if_pos ha)))
  case rearmed =>
    rw [if_neg ha, State.rearmGroup, hgroup] at howner
    generalize hv : u.setGroup g { s.group g with state := .normal } = v at howner
    have hframe := appendNotices_frame v (fun n => n != p && u.holdsInGroup n g) (.tripCleared g)
    have hport : ∀ n, (v.appendNotices (fun n => n != p && u.holdsInGroup n g) (.tripCleared g)).port n =
        if n ≠ p ∧ holder n then s.portTold n [.tripCleared g] else (s.dequeue p).port n := by
      intro n
      have hselected : (n != p && u.holdsInGroup n g) = true ↔ n ≠ p ∧ holder n := by
        rw [Bool.and_eq_true, bne_iff_ne, hholder]
      have hvport : v.port n = (s.dequeue p).port n := by rw [← hv, ← hu]; rfl
      rw [← portTold_nil (_) n, portTold_appendNotices, if_congr hselected rfl rfl]
      split
      · rename_i hn
        refine portTold_congr n (hvport.trans ?_) ?_ _
        · simp [State.dequeue, hn.1]
        · rw [← hv, ← hu]; simp [State.dequeue, State.leased, hn.1]
      · rw [portTold_nil, hvport]
    generalize v.appendNotices _ _ = w at howner hport hframe
    subst hu
    refine ⟨w.replied p f .ok [0], congrArg _ (take_admitted_eq h (by decide) hrow howner), ?_, ?_, fun n hnp => ?_⟩
    · rw [OnlyPorts] at hframe
      rw [hframe, ← hv]; rfl
    · simp [State.replied, hport, State.dequeue, PortRec.answered]
    · simp +contextual [State.replied, hnp, hport, State.dequeue]

end Sys2Proof.Machine
end

section
/-! An activation of a guard input (R102, R105 to R107): the groups that it trips, what the trips leave together, and the
notices of them all. -/

namespace Sys2Proof.Machine

/-! ### Several trips -/

theorem foldl_tripGroup_group (gs : List GroupNo) (s : State) (x : GroupNo) :
    (gs.foldl State.tripGroup s).group x =
      if x ∈ gs then { s.group x with state := .tripped } else s.group x := by
  induction gs generalizing s with
  | nil => rfl
  | cons g gs ih =>
    rw [List.foldl_cons, ih, tripGroup_group]
    by_cases hx : x = g
    · subst hx; simp
    · simp [hx]

theorem foldl_tripGroup_line (gs : List GroupNo) (s : State) (l : LineNo) :
    (gs.foldl State.tripGroup s).line l =
      if groupOf l ∈ gs then { s.line l with asserted := (s.line l).safe } else s.line l := by
  induction gs generalizing s with
  | nil => rfl
  | cons g gs ih =>
    rw [List.foldl_cons, ih, tripGroup_line]
    by_cases hl : groupOf l = g
    · simp [hl]
    · simp [hl]

theorem foldl_tripGroup_pair (gs : List GroupNo) (s : State) (k : PairNo) :
    (gs.foldl State.tripGroup s).pair k =
      if groupOfPair k ∈ gs ∧ s.pairBound k = true then
        { s.pair k with state := levelState (s.line (primary k)).safe (s.line (partner k)).safe }
      else s.pair k := by
  induction gs generalizing s with
  | nil => simp
  | cons g gs ih =>
    rw [List.foldl_cons, ih, tripGroup_pairBound, tripGroup_safe, tripGroup_safe, tripGroup_pair]
    by_cases hk : groupOfPair k = g
    · cases s.pairBound k <;> simp [hk]
    · simp [hk]

theorem foldl_tripGroup_frame (gs : List GroupNo) (s : State) : OnlyGroups s (gs.foldl State.tripGroup s) :=
  foldl_frame OnlyGroups.refl OnlyGroups.trans tripGroup_frame gs s

theorem tripGroup_portTold (s : State) (g : GroupNo) (n : StationNo) (xs : List Notice) :
    (s.tripGroup g).portTold n xs = s.portTold n xs := by
  have hf : OnlyLines (s.setGroup g { s.group g with state := .tripped }) (s.tripGroup g) :=
    foldl_frame OnlyLines.refl OnlyLines.trans toSafe_frame _ _
  rw [OnlyLines] at hf
  rw [hf]; rfl

theorem foldl_tripGroup_portTold (gs : List GroupNo) (s : State) (n : StationNo) (xs : List Notice) :
    (gs.foldl State.tripGroup s).portTold n xs = s.portTold n xs := by
  induction gs generalizing s with
  | nil => rfl
  | cons g gs ih => rw [List.foldl_cons, ih, tripGroup_portTold]

/-- Trips take no line from its holder. -/
theorem foldl_tripGroup_holdsInGroup (gs : List GroupNo) (s : State) (n : StationNo) (g : GroupNo) :
    (gs.foldl State.tripGroup s).holdsInGroup n g = s.holdsInGroup n g := by
  have hf := foldl_tripGroup_frame gs s
  rw [OnlyGroups] at hf
  refine holdsInGroup_congr (fun l => ?_) (by rw [hf]) n g
  rw [foldl_tripGroup_line]; split <;> rfl

/-! ### The activation -/

/-- The groups tripped are the NORMAL ones whose map names the input (R105). -/
theorem mem_tripsOn {s : State} {x : GuardInput} {g : GroupNo} :
    g ∈ s.tripsOn x ↔ (s.groupNormal g && mapNames (s.group g).map x) = true := by
  rw [State.tripsOn, List.mem_filter, and_iff_right (List.mem_finRange g)]

/-- Notices for several groups, one group after the other. -/
def State.tripNoticesOf (s : State) (gs : List GroupNo) (x : GuardInput) : State :=
  gs.foldl (fun u g => u.tripNotices g x) s

theorem tripNoticesOf_frame (s : State) (gs : List GroupNo) (x : GuardInput) : OnlyPorts s (s.tripNoticesOf gs x) :=
  foldl_frame OnlyPorts.refl OnlyPorts.trans (fun u g => tripNotices_frame u g x) gs s

theorem setGuard_group (s : State) (x : GuardInput) (a : Bool) (g : GroupNo) : (s.setGuard x a).group g = s.group g := by
  cases x <;> rfl

theorem setGuard_line (s : State) (x : GuardInput) (a : Bool) (l : LineNo) : (s.setGuard x a).line l = s.line l := by
  cases x <;> rfl

theorem setGuard_pair (s : State) (x : GuardInput) (a : Bool) (k : PairNo) : (s.setGuard x a).pair k = s.pair k := by
  cases x <;> rfl

theorem setGuard_portTold (s : State) (x : GuardInput) (a : Bool) (n : StationNo) (xs : List Notice) :
    (s.setGuard x a).portTold n xs = s.portTold n xs := by cases x <;> rfl

theorem setGuard_holdsInGroup (s : State) (x : GuardInput) (a : Bool) (n : StationNo) (g : GroupNo) :
    (s.setGuard x a).holdsInGroup n g = s.holdsInGroup n g := by cases x <;> rfl

/-- The groups of the activation tripped together, before their notices. -/
def State.trippedOn (s : State) (x : GuardInput) : State := (s.tripsOn x).foldl State.tripGroup (s.setGuard x true)

theorem trippedOn_frame (s : State) (x : GuardInput) : OnlyGroups (s.setGuard x true) (s.trippedOn x) :=
  foldl_tripGroup_frame _ _

theorem activate_eq (s : State) (x : GuardInput) :
    s.activate x = { (s.trippedOn x).tripNoticesOf (s.tripOrder (s.tripsOn x)) x with
      freeChoices := s.freeChoices + 1 } := rfl

theorem activate_frame (s : State) (x : GuardInput) :
    s.activate x = { s.setGuard x true with
      groups := (s.activate x).groups, lines := (s.activate x).lines, pairs := (s.activate x).pairs
      ports := (s.activate x).ports, freeChoices := (s.activate x).freeChoices } := by
  have hf := (trippedOn_frame s x).trans (tripNoticesOf_frame _ (s.tripOrder (s.tripsOn x)) x).toGroups
  rw [OnlyGroups] at hf
  rw [activate_eq, hf]

/-- Groups, lines and pairs are as the trips left them: the notices change none. -/
theorem activate_records (s : State) (x : GuardInput) :
    (s.activate x).group = (s.trippedOn x).group ∧ (s.activate x).line = (s.trippedOn x).line ∧
      (s.activate x).pair = (s.trippedOn x).pair := by
  have hf := tripNoticesOf_frame (s.trippedOn x) (s.tripOrder (s.tripsOn x)) x
  rw [OnlyPorts] at hf
  rw [activate_eq, hf]
  exact ⟨rfl, rfl, rfl⟩

/-- Each port has the TRIP notices of the groups in which its station holds a line, in the order of the trips (R107). -/
theorem activate_port (s : State) (x : GuardInput) (n : StationNo) :
    (s.activate x).port n =
      s.portTold n (((s.tripOrder (s.tripsOn x)).filter (s.holdsInGroup n)).map (fun g => .trip g x)) := by
  have hholds : (s.trippedOn x).holdsInGroup n = s.holdsInGroup n := funext fun g => by
    rw [State.trippedOn, foldl_tripGroup_holdsInGroup, setGuard_holdsInGroup]
  have hport : ∀ xs, (s.trippedOn x).portTold n xs = s.portTold n xs := fun xs => by
    rw [State.trippedOn, foldl_tripGroup_portTold, setGuard_portTold]
  have h := foldl_tripNotices_port (s.tripOrder (s.tripsOn x)) x n (s.trippedOn x)
  rw [hholds, hport] at h
  exact h

theorem exec_guardActivation {s : State} (hs : s.atWork) (x : GuardInput) :
    exec (.guardActivation x) s = .next (if s.guardActive x then s else s.activate x) := by
  simp only [exec, execGuardActivation, acting_atWork hs]

theorem exec_guardDeactivation {s : State} (hs : s.atWork) (x : GuardInput) :
    exec (.guardDeactivation x) s = .next (s.setGuard x false) := by
  simp only [exec, execGuardDeactivation, acting_atWork hs]

/-- Settles O42: the groups tripped, in the order in which the model tells their holders. -/
theorem guardActivationTripsGroups : Obligations.GuardActivationTripsGroups := by
  intro x s hs mapped holder
  have hmapped : ∀ g, mapped g = (s.groupNormal g && mapNames (s.group g).map x) := fun g => by
    simp only [mapped, State.groupNormal]
    cases x <;> cases (s.group g).map <;> rfl
  have hmem : ∀ g, g ∈ s.tripsOn x ↔ mapped g = true := fun g => by rw [mem_tripsOn, hmapped]
  have hholder : ∀ n, s.holdsInGroup n = holder n := fun n => funext fun g => by
    rw [Bool.eq_iff_iff, holdsInGroup_iff]
    simp [holder, List.any_eq_true]
  obtain ⟨hgroup, hline, hpair⟩ := activate_records s x
  refine ⟨fun hi => ⟨s.activate x, s.tripOrder (s.tripsOn x), ?_, ?_, activate_frame s x, fun g => ?_, fun l => ?_,
    fun k => ?_, fun n => ?_⟩, fun ha => ?_, exec_guardDeactivation hs x⟩
  · rw [exec_guardActivation hs, if_neg (by rw [hi]; exact nofun)]
  · rw [funext hmapped]; exact List.perm_insertionSort _ _
  · rw [hgroup, State.trippedOn, foldl_tripGroup_group, setGuard_group]
    exact if_congr (hmem g) rfl rfl
  · rw [hline, State.trippedOn, foldl_tripGroup_line, setGuard_line]
    exact if_congr (hmem _) rfl rfl
  · rw [hpair, State.trippedOn, foldl_tripGroup_pair]
    simp only [setGuard_pair, setGuard_line, State.pairBound, hmem, Bool.and_eq_true]
  · rw [activate_port, hholder]
  · rw [exec_guardActivation hs, if_pos ha]

end Sys2Proof.Machine
end

section
/-! Edges that meet a TRIPPED group (R108, R109). -/

namespace Sys2Proof.Machine

theorem suppress_eq_told (s : State) (i : SlotNo) (o : Order) :
    s.suppress i o = (s.removeOrder i).told o.station (.suppressed (s.handle i) o.tag s.tb.t) :=
  appendNotice_eq_told _ _ _

section Tripped

variable {s : State} {i : SlotNo} {o : Order} (hg : (s.group o.body.group).state = .tripped)
include hg

theorem not_groupNormal_of_tripped : ¬s.groupNormal o.body.group = true := by
  rw [State.groupNormal, hg]; exact nofun

/-- The edge of a STEP, PULSE or PATTERN is suppressed (R108). -/
theorem fireEdge_suppressed (cause : EdgeCause) (hb : ∀ l x, o.body ≠ .train l x) :
    s.fireEdge cause i o = s.suppress i o := by
  have hn := not_groupNormal_of_tripped hg
  unfold State.fireEdge
  cases hbody : o.body with
  | train l x => exact absurd hbody (hb l x)
  | step l a =>
    rw [hbody] at hn
    exact if_neg hn
  | pattern g m levels =>
    rw [hbody] at hn
    exact if_neg hn
  | pulse l w =>
    rw [hbody] at hn
    dsimp only
    split <;> exact if_neg hn

variable {l : LineNo} {x : TrainRec} (hb : o.body = .train l x)
include hb

theorem not_groupNormal_of_tripped_train : ¬s.groupNormal (groupOf l) = true := by
  have hn := not_groupNormal_of_tripped hg
  rwa [hb] at hn

/-- A train that ends is removed with ENDED SUPPRESSED, whatever the reason (R109). -/
theorem endTrain_suppressed (cause : EdgeCause) (reason : EndReason) :
    s.endTrain cause i o l reason =
      (s.removeOrder i).told o.station (.ended (s.handle i) o.tag .suppressed s.tb.t) := by
  rw [State.endTrain, if_neg (not_groupNormal_of_tripped_train hg hb), appendNotice_eq_told]

/-- A width step keeps the cadence alone (R109). -/
theorem widthStep_tripped (cause : EdgeCause) (y : TrainRec) :
    s.widthStep cause i o l y = s.placeOrder i
      { o with
        body := .train l { y with begun := true }
        state := if y.width = 0 ∨ y.width = y.period then .scheduled (s.tb.t + y.period.setWidth 32) .leading
          else .scheduled (s.tb.t + y.width.setWidth 32) .trailing } := by
  exact if_neg (not_groupNormal_of_tripped_train hg hb)

/-- The trailing edge of a train makes no command, and without a gap there is none to complete (R25, R108). -/
theorem trainTrailing_tripped (hgap : ∀ k, groupOfPair k = o.body.group → (s.pair k).state.inGap = false) :
    s.trainTrailing .due i o l x = s.placeOrder i
      { o with state := .scheduled (s.tb.t + (x.period.setWidth 32 - x.width.setWidth 32)) .leading } := by
  rw [hb] at hg hgap
  have hcommand : s.edgeCommand .due l .deassert = s := by
    rw [State.edgeCommand, completeGap_of_not_inGap (hgap _ (groupOfPair_pairOf l)), command_tripped hg]
  rw [State.trainTrailing, hcommand]

end Tripped

/-- Settles O39. -/
theorem firingInTrippedGroup : Obligations.FiringInTrippedGroup := by
  intro s i o e ph h hs hg hgap handle
  refine ⟨fun hb => ?suppressed, ?train⟩
  case suppressed =>
    rw [exec_firing_onlyDue h, fireEdge_suppressed hg .due hb, suppress_eq_told]
    rfl
  intro l x hb width period finished
  refine ⟨?ended, ?cadence, ?trailing⟩
  case ended =>
    rintro rfl hfinished
    rw [exec_firing_train_leading h hb hs, State.periodStart]
    by_cases hx : x.begun = true ∧ ∃ n, x.remaining = some n ∧ n.toNat ≤ 1
    · rw [countStep_exhausted hx]
      exact congrArg _ (endTrain_suppressed hg hb .due .complete)
    · rw [countStep_counts hx]
      dsimp only
      rw [if_pos (hfinished.resolve_left hx)]
      exact congrArg _ (endTrain_suppressed hg hb .due .cancelled)
  case cadence =>
    rintro rfl hgoes
    obtain ⟨hx, hending⟩ := not_or.mp hgoes
    rw [exec_firing_train_leading h hb hs, State.periodStart, countStep_counts hx]
    dsimp only
    rw [if_neg hending, revise_eq]
    exact congrArg _ (widthStep_tripped hg hb .due _)
  case trailing =>
    rintro rfl
    rw [exec_firing_train_trailing h hb hs, trainTrailing_tripped hg hb hgap]

end Sys2Proof.Machine
end

section
/-! Power-on reset: RESET_BEGIN, the part while reset lasts, and POWER_ON_RESET_END (R177, R178, R113). -/

namespace Sys2Proof.Machine

/-- While power-on reset lasts no request can be taken, and no lease lapses by one (R177). -/
theorem take_inReset {s : State} (h : s.inReset = true) (p : StationNo) (row : RequestFrame → Bool)
    (owner : StationNo → RequestFrame → State → OwnerReply) : s.take p row owner = s := by
  have hnone : s.takeable p = none := if_pos h
  simp [State.take, State.serve, hnone]

/-- Every command that is neither a request row nor an end of power-on reset works only outside reset. -/
theorem exec_eventRow {c : Instr} (hrow : requestRow c = none) (hbegin : c ≠ .resetBegin)
    (hend : ∀ a b x y, c ≠ .powerOnResetEnd a b x y) (s : State) : ∃ u, exec c s = working s u := by
  cases c <;> cases hrow
  case resetBegin => exact absurd rfl hbegin
  case powerOnResetEnd a b x y => exact absurd rfl (hend a b x y)
  all_goals exact ⟨_, rfl⟩

theorem exec_inReset {s : State} {c : Instr} (h : s.inReset = true) (hbegin : c ≠ .resetBegin)
    (hend : ∀ a b x y, c ≠ .powerOnResetEnd a b x y) : exec c s = .next s := by
  cases hrow : requestRow c with
  | some x => rw [exec_requestRow hrow, take_inReset h]
  | none =>
    obtain ⟨u, hu⟩ := exec_eventRow hrow hbegin hend s
    rw [hu, working, if_pos h]

theorem exec_powerOnResetEnd (rate1 rate0 ga gb : Level) (s : State) :
    exec (.powerOnResetEnd rate1 rate0 ga gb) s = .next (if s.inReset then
      { State.powerOn rate1 rate0 ga gb with pending := s.pending, freeChoices := s.freeChoices } else s) := rfl

/-- The straps and the guard samples decide the port rate, the guard inputs and the groups, and nothing else. -/
theorem powerOn_eq (rate1 rate0 ga gb : Level) :
    State.powerOn rate1 rate0 ga gb =
      { State.reset with
        rateDivisor := rateOfStraps rate1 rate0, guardA := ga == .low, guardB := gb == .low
        groups := (State.powerOn rate1 rate0 ga gb).groups } := by
  have hactive : ∀ a : Level, decide (a = .low) = (a == .low) := fun a => by cases a <;> rfl
  rw [← hactive, ← hactive]
  rfl

/-- Settles O51. -/
theorem powerOnResetBeginsAndEnds : Obligations.PowerOnResetBeginsAndEnds := by
  refine ⟨fun s => ⟨s.inPowerOnReset, rfl, rfl, rfl, fun l => if_pos rfl⟩, fun s c => exec_inReset, ?_⟩
  intro s rate1 rate0 ga gb
  rw [exec_powerOnResetEnd]
  refine ⟨fun h => by rw [h]; rfl, fun h => ⟨_, congrArg _ (if_pos h), ?_, fun g => ?_⟩⟩
  · rw [powerOn_eq]
    cases rate1 <;> cases rate0 <;> rfl
  · exact Vector.getElem_replicate _

end Sys2Proof.Machine
end

section
/-! The bounds of a port's queues (R154, R158, R159), and the part's work outside the capture unit: it reaches the ports by
notices alone, and leaves the inputs, the journal and the capture counter (`Telling`). -/

namespace Sys2Proof.Machine

/-! ### One port -/

/-- The law of the queues at one port: at most 8 notices and 2 requests, and a reply waits only while the transmitter
sends. -/
def PortRec.queued (r : PortRec) : Prop :=
  r.notices.length ≤ 8 ∧ r.requests.length ≤ 2 ∧ (r.transmitter = .idle → r.replySlot = none)

theorem queueLaw_iff (s : State) : s.queueLaw ↔ ∀ n, (s.port n).queued := Iff.rfl

section Port

variable {r : PortRec} (h : r.queued)
include h

/-- The receiver's fields, the counters and what is kept for a replay are free. -/
theorem PortRec.queued.of_same {q : PortRec} (hn : q.notices = r.notices) (hr : q.requests = r.requests)
    (ht : q.transmitter = r.transmitter) (hs : q.replySlot = r.replySlot) : q.queued := by
  unfold PortRec.queued
  rw [hn, hr, ht, hs]
  exact h

theorem PortRec.queued.tail : ({ r with requests := r.requests.tail } : PortRec).queued := by
  obtain ⟨hnotices, hrequests, hslot⟩ := h
  exact ⟨hnotices, by rw [List.length_tail]; omega, hslot⟩

theorem PortRec.queued.enqueue (x : Notice) : (r.enqueue x).queued := by
  obtain ⟨hnotices, hrequests, hslot⟩ := h
  unfold PortRec.enqueue Config.noticeQueue
  split
  · exact ⟨by rw [List.length_append, List.length_singleton]; omega, hrequests, hslot⟩
  · exact ⟨hnotices, hrequests, hslot⟩

omit h in
/-- A transmitter that has chosen leaves a reply in the slot only where it sends (R158). -/
theorem queued_choose (hn : r.notices.length ≤ 8) (hr : r.requests.length ≤ 2) (bound : Bool) (session : Byte) :
    (r.choose bound session).queued := by
  obtain ⟨_, _, _, slot, _, _, notices, _, _, transmitter, _⟩ := r
  cases transmitter with
  | idle =>
    cases slot with
    | some reply => exact ⟨hn, hr, nofun⟩
    | none =>
      cases bound with
      | false => exact ⟨hn, hr, fun _ => rfl⟩
      | true =>
        cases notices with
        | nil => exact ⟨hn, hr, fun _ => rfl⟩
        | cons x rest => exact ⟨Nat.le_of_succ_le hn, hr, nofun⟩
  | sending => exact ⟨hn, hr, nofun⟩
  | cut => exact ⟨hn, hr, nofun⟩

theorem PortRec.queued.choose (bound : Bool) (session : Byte) : (r.choose bound session).queued :=
  queued_choose h.1 h.2.1 bound session

theorem PortRec.queued.noticed (session : Byte) (x : Notice) : (r.noticed session x).queued := by
  rw [← enqueue_choose]
  exact (h.enqueue x).choose true session

theorem PortRec.queued.teardown (keep : Bool) : (r.teardown keep).queued := by
  obtain ⟨-, -, hslot⟩ := h
  refine ⟨Nat.zero_le _, Nat.zero_le _, fun ht => ?_⟩
  cases keep with
  | false => rfl
  | true => exact hslot ht

omit h in
theorem queued_emptied (r : PortRec) : r.emptied.queued := ⟨Nat.zero_le _, Nat.zero_le _, fun _ => rfl⟩

theorem PortRec.queued.decideFrame (data : Byte) : (r.decideFrame data).queued := by
  have hhunt : r.toHunt.queued := h
  unfold PortRec.decideFrame
  split
  · exact hhunt
  · split
    · exact hhunt
    · split
      · exact hhunt
      · rename_i hfull
        obtain ⟨hnotices, -, hslot⟩ := h
        refine ⟨hnotices, ?_, hslot⟩
        rw [List.length_append, List.length_singleton]
        exact Nat.lt_of_not_le hfull

theorem PortRec.queued.endEarly (data : Byte) (marker stop : Bool) : (r.endEarly data marker stop).queued := by
  unfold PortRec.endEarly
  split
  · exact h
  · split <;> exact h

theorem PortRec.queued.character (data : Byte) (marker stop : Bool) : (r.character data marker stop).queued := by
  unfold PortRec.character
  split
  · split <;> exact h
  all_goals exact h

end Port

/-! ### Work that tells stations, and touches nothing of the capture unit -/

/-- Ports only get notices, and the capture unit's records stand. -/
structure Telling (s t : State) : Prop where
  port : ∀ n, (s.port n).queued → (t.port n).queued
  inputs : t.inputs = s.inputs
  journal : t.journal = s.journal
  captureSeq : t.captureSeq = s.captureSeq

theorem Telling.refl (s : State) : Telling s s := ⟨fun _ h => h, rfl, rfl, rfl⟩

theorem Telling.trans {s t u : State} (a : Telling s t) (b : Telling t u) : Telling s u where
  port n h := b.port n (a.port n h)
  inputs := b.inputs.trans a.inputs
  journal := b.journal.trans a.journal
  captureSeq := b.captureSeq.trans a.captureSeq

theorem Telling.foldl {α : Type} {f : State → α → State} (step : ∀ s x, Telling s (f s x)) (l : List α) (s : State) :
    Telling s (l.foldl f s) := foldl_frame Telling.refl Telling.trans step l s

/-- Work that changes no port. -/
theorem Telling.of_same {s t : State} (hp : t.ports = s.ports) (hi : t.inputs = s.inputs)
    (hj : t.journal = s.journal) (hc : t.captureSeq = s.captureSeq) : Telling s t where
  port n h := by rw [State.port, hp]; exact h
  inputs := hi
  journal := hj
  captureSeq := hc

theorem OnlyLines.telling {s t : State} (a : OnlyLines s t) : Telling s t :=
  .of_same a.ports a.inputs a.journal a.captureSeq

theorem telling_setPort (s : State) (n : StationNo) {r : PortRec} (h : (s.port n).queued → r.queued) :
    Telling s (s.setPort n r) where
  port m hm := by
    rw [State.setPort_port]
    split
    · rename_i e; exact h (by rw [← e]; exact hm)
    · exact hm
  inputs := rfl
  journal := rfl
  captureSeq := rfl

theorem telling_appendNotice (s : State) (n : StationNo) (x : Notice) : Telling s (s.appendNotice n x) := by
  cases hb : s.isBound n with
  | false => rw [appendNotice_unbound hb]; exact .refl s
  | true => rw [appendNotice_bound hb]; exact telling_setPort s n fun h => h.noticed _ x

theorem telling_appendNotices (s : State) (who : StationNo → Bool) (x : Notice) :
    Telling s (s.appendNotices who x) := .foldl (fun u n => telling_appendNotice u n x) _ s

/-! ### Orders -/

theorem telling_removeOrder (s : State) (i : SlotNo) : Telling s (s.removeOrder i) := .of_same rfl rfl rfl rfl

theorem telling_removeOrders (s : State) (l : List SlotNo) : Telling s (s.removeOrders l) :=
  .foldl telling_removeOrder l s

theorem telling_setOrder (s : State) (i : SlotNo) (o : Order) : Telling s (s.setOrder i o) := .of_same rfl rfl rfl rfl

theorem telling_placeOrder (s : State) (i : SlotNo) (o : Order) : Telling s (s.placeOrder i o) :=
  .of_same rfl rfl rfl rfl

theorem telling_fired (s : State) (cause : EdgeCause) (h : Handle) (o : Order) : Telling s (s.fired cause h o) := by
  unfold State.fired
  split
  · exact telling_appendNotice s _ _
  · exact .refl s

theorem telling_ended (s : State) (h : Handle) (o : Order) (r : EndReason) : Telling s (s.ended h o r) := by
  unfold State.ended
  split
  · exact telling_appendNotice s _ _
  · exact .refl s

section Edges

variable (s : State) (cause : EdgeCause) (i : SlotNo) (o : Order)

/-- The shape of an edge that drives lines, takes the order out and tells of it. -/
theorem telling_edge_remove {s t u : State} {i : SlotNo} (a : OnlyLines s t) (b : Telling (t.removeOrder i) u) :
    Telling s u := (a.telling.trans (telling_removeOrder t i)).trans b

/-- The shape of an edge that drives a line, places the order again and tells of it. -/
theorem telling_edge_place {s t u : State} {i : SlotNo} {o : Order} (a : OnlyLines s t)
    (b : Telling (t.placeOrder i o) u) : Telling s u := (a.telling.trans (telling_placeOrder t i o)).trans b

theorem telling_suppress : Telling s (s.suppress i o) :=
  telling_edge_remove (OnlyLines.refl s) (telling_appendNotice _ _ _)

theorem telling_fireStep (l : LineNo) (a : StepAction) : Telling s (s.fireStep cause i o l a) := by
  unfold State.fireStep
  split
  · exact telling_edge_remove (edgeCommand_frame s cause l _) (telling_fired _ _ _ _)
  · exact telling_suppress s i o

theorem telling_firePattern (g : GroupNo) (mask levels : BitVec 4) :
    Telling s (s.firePattern cause i o g mask levels) := by
  unfold State.firePattern
  split
  · exact telling_edge_remove (patternCommands_frame s cause g mask levels) (telling_fired _ _ _ _)
  · exact telling_suppress s i o

theorem telling_firePulseLeading (l : LineNo) (w : Span) : Telling s (s.firePulseLeading cause i o l w) := by
  unfold State.firePulseLeading
  split
  · exact telling_edge_place (edgeCommand_frame s cause l _) (telling_fired _ _ _ _)
  · exact telling_suppress s i o

theorem telling_firePulseTrailing (l : LineNo) : Telling s (s.firePulseTrailing cause i o l) := by
  unfold State.firePulseTrailing
  split
  · exact telling_edge_remove (edgeCommand_frame s cause l _) (telling_ended _ _ _ _)
  · exact telling_suppress s i o

theorem telling_endTrain (l : LineNo) (r : EndReason) : Telling s (s.endTrain cause i o l r) := by
  unfold State.endTrain
  split
  · exact telling_edge_remove (edgeCommand_frame s cause l _) (telling_ended _ _ _ _)
  · exact telling_edge_remove (OnlyLines.refl s) (telling_appendNotice _ _ _)

theorem telling_widthStep (l : LineNo) (x : TrainRec) : Telling s (s.widthStep cause i o l x) := by
  unfold State.widthStep
  dsimp only
  split
  · exact telling_edge_place (edgeCommand_frame s cause l _) (telling_fired _ _ _ _)
  · exact telling_placeOrder s i _

theorem telling_periodStart (l : LineNo) (x : TrainRec) : Telling s (s.periodStart cause i o l x) := by
  unfold State.periodStart
  split
  · exact telling_endTrain s cause i o l _
  · split
    · exact telling_endTrain s cause i o l _
    · exact telling_widthStep s cause i o l _

theorem telling_trainTrailing (l : LineNo) (x : TrainRec) : Telling s (s.trainTrailing cause i o l x) :=
  telling_edge_place (edgeCommand_frame s cause l _) (.refl _)

/-- An edge tells its order's station at most (R77, R78, R108). -/
theorem telling_fireEdge : Telling s (s.fireEdge cause i o) := by
  unfold State.fireEdge
  split
  · exact telling_fireStep s cause i o _ _
  · exact telling_firePattern s cause i o _ _ _
  · split
    · exact telling_firePulseTrailing s cause i o _
    all_goals exact telling_firePulseLeading s cause i o _ _
  · split
    · exact telling_trainTrailing s cause i o _ _
    all_goals exact telling_periodStart s cause i o _ _

end Edges

theorem telling_fireDueSlot (s : State) (i : SlotNo) : Telling s (s.fireDueSlot i) := by
  unfold State.fireDueSlot
  split
  · split
    · exact telling_fireEdge s _ i _
    · exact .refl s
  · exact .refl s

theorem telling_fireDue (s : State) : Telling s s.fireDue := .foldl telling_fireDueSlot _ s

theorem telling_cancelOrder (s : State) (i : SlotNo) : Telling s (s.cancelOrder i) := by
  unfold State.cancelOrder
  split
  · exact .refl s
  · split
    · exact telling_edge_remove (command_frame s _ _) (.refl _)
    · exact telling_removeOrder s i

theorem telling_trigger (e : Time) (s : State) (i : SlotNo) : Telling s (s.trigger e i) := by
  unfold State.trigger
  split
  · exact .refl s
  · split
    · split
      · exact telling_edge_remove (OnlyLines.refl s) (telling_appendNotice _ _ _)
      · exact ((telling_fireDue s).trans (telling_setOrder _ i _)).trans (telling_fireEdge _ _ i _)
      · exact telling_placeOrder s i _
      · exact telling_placeOrder s i _
    · exact .refl s

theorem telling_triggerAll (s : State) (c : InputNo) (e : Time) : Telling s (s.triggerAll c e) :=
  Telling.trans (t := s.setArmed c []) (.of_same rfl rfl rfl rfl) (.foldl (telling_trigger e) _ _)

/-! ### Guards -/

theorem telling_setGuard (s : State) (i : GuardInput) (a : Bool) : Telling s (s.setGuard i a) := by
  cases i <;> exact .of_same rfl rfl rfl rfl

theorem telling_tripGroup (s : State) (g : GroupNo) : Telling s (s.tripGroup g) :=
  Telling.trans (t := s.setGroup g _) (.of_same rfl rfl rfl rfl) (.foldl (fun u l => (toSafe_frame u l).telling) _ _)

theorem telling_tripNotices (s : State) (g : GroupNo) (i : GuardInput) : Telling s (s.tripNotices g i) :=
  telling_appendNotices s _ _

theorem telling_activate (s : State) (i : GuardInput) : Telling s (s.activate i) :=
  (((telling_setGuard s i true).trans (.foldl telling_tripGroup _ _)).trans
    (.foldl (fun u g => telling_tripNotices u g i) _ _)).trans (.of_same rfl rfl rfl rfl)

theorem telling_remap (s : State) (g : GroupNo) (m : GuardMap) : Telling s (s.remap g m) := by
  have hmap : Telling s (s.setGroup g { s.group g with map := m }) := .of_same rfl rfl rfl rfl
  unfold State.remap
  dsimp only
  split
  · split
    · exact (hmap.trans (telling_tripGroup _ g)).trans (telling_tripNotices _ g _)
    · exact hmap
  · exact hmap

/-! ### Claims -/

theorem telling_grant (s : State) (c : Claim) : Telling s (s.grant c) :=
  Telling.trans (t := { s with held := s.held ++ [c] }) (.of_same rfl rfl rfl rfl)
    (.foldl (fun u l => (grantLine_frame c.id u l).telling) _ _)

theorem telling_grantWalk : ∀ (todo kept : List WaitingClaim) (s : State), Telling s (s.grantWalk kept todo).1
  | [], _, s => .refl s
  | w :: rest, kept, s => by
    unfold State.grantWalk
    split
    · exact ((telling_grant s w.claim).trans (telling_appendNotice _ _ _)).trans (telling_grantWalk rest kept _)
    · exact telling_grantWalk rest (kept ++ [w]) s

theorem telling_grantScanFrom : ∀ (fuel : Nat) (s : State), Telling s (s.grantScanFrom fuel)
  | 0, s => .refl s
  | fuel + 1, s => by
    have h : Telling s { (s.grantWalk [] s.waiting).1 with waiting := (s.grantWalk [] s.waiting).2.1 } :=
      (telling_grantWalk s.waiting [] s).trans (.of_same rfl rfl rfl rfl)
    unfold State.grantScanFrom
    dsimp only
    split
    · exact h.trans (telling_grantScanFrom fuel _)
    · exact h

theorem telling_grantScan (s : State) : Telling s s.grantScan := telling_grantScanFrom _ s

theorem telling_giveUp (s : State) (c : Claim) (a : LineAction) : Telling s (s.giveUp c a) :=
  ((applyAction_frame s c.lines a).telling.trans (.foldl (fun u l => (freeLine_frame u l).telling) _ _)).trans
    (.of_same rfl rfl rfl rfl)

theorem telling_waiting (s : State) (l : List WaitingClaim) : Telling s { s with waiting := l } :=
  .of_same rfl rfl rfl rfl

theorem telling_claimTeardown (s : State) (n : StationNo) : Telling s (s.claimTeardown n) :=
  ((Telling.foldl (fun u (c : Claim) => telling_giveUp u c c.loss) _ s).trans (telling_waiting _ _)).trans
    (telling_grantScan _)

theorem telling_expireWaits (s : State) : Telling s s.expireWaits := by
  unfold State.expireWaits
  split
  · exact .refl s
  · exact ((telling_waiting s _).trans (.foldl (fun u w => telling_appendNotice u _ _) _ _)).trans
      (telling_grantScan _)

/-! ### Sessions and the timebase -/

theorem telling_setStation (s : State) (n : StationNo) (r : StationRec) : Telling s (s.setStation n r) :=
  .of_same rfl rfl rfl rfl

theorem telling_setTb (s : State) (b : Timebase) : Telling s { s with tb := b } := .of_same rfl rfl rfl rfl

theorem telling_orderTeardown (s : State) (n : StationNo) : Telling s (s.orderTeardown n) :=
  (telling_removeOrders s _).trans (telling_setStation _ n _)

theorem telling_disarm (s : State) (n : StationNo) : Telling s (s.disarm n) := by
  unfold State.disarm
  split
  · exact telling_setTb s _
  · exact .refl s

theorem telling_markEdge (s : State) : Telling s s.markEdge := by
  unfold State.markEdge
  split
  · exact (telling_setTb s _).trans (telling_appendNotices _ _ _)
  · exact .refl s

theorem telling_armExpiry (s : State) : Telling s s.armExpiry := by
  unfold State.armExpiry
  split
  · dsimp only
    split
    · exact (telling_setTb s _).trans (telling_appendNotice _ _ _)
    · exact telling_setTb s _
  · exact .refl s

end Sys2Proof.Machine
end

section
/-! The laws of the queues (R154, R158, R159) and of the capture unit (R114, R122, R123), kept by every step: first the
journal and the inputs, then every owner of a request, every event and every step. -/

namespace Sys2Proof.Machine

/-! ### The numbering of the journal (R122, R123) -/

theorem numberedTo_cons (next : Half) (r : JournalRec) (l : List JournalRec) :
    numberedTo next (r :: l) = true ↔
      r.seq = next - BitVec.ofNat 16 (l.length + 1) ∧ numberedTo next l = true := by
  simp [numberedTo]

/-- The rest of a numbered journal is numbered: each number is fixed by the records behind it. -/
theorem numberedTo_of_suffix {next : Half} {l m : List JournalRec} (hs : l <:+ m) (h : numberedTo next m = true) :
    numberedTo next l = true := by
  induction m with
  | nil => rw [List.suffix_nil.mp hs]; exact h
  | cons r m ih =>
    rcases List.suffix_cons_iff.mp hs with rfl | hs
    · exact h
    · exact ih hs ((numberedTo_cons _ _ _).mp h).2

/-- The numbering reads the numbers alone. -/
theorem numberedTo_congr {next : Half} {l m : List JournalRec}
    (hs : l.map JournalRec.seq = m.map JournalRec.seq) (h : numberedTo next m = true) : numberedTo next l = true := by
  induction m generalizing l with
  | nil => rw [List.map_eq_nil_iff.mp hs]; exact h
  | cons r m ih =>
    cases l with
    | nil => cases hs
    | cons q l =>
      obtain ⟨hq, hl⟩ := List.cons.inj hs
      have hlen : l.length = m.length := by simpa using congrArg List.length hl
      obtain ⟨hr, hm⟩ := (numberedTo_cons _ _ _).mp h
      exact (numberedTo_cons _ _ _).mpr ⟨by rw [hq, hr, hlen], ih hl hm⟩

/-- A record with the counter's number joins the tail, and the counter advances (R123). -/
theorem numberedTo_append {next : Half} {l : List JournalRec} {r : JournalRec} (hr : r.seq = next)
    (h : numberedTo next l = true) : numberedTo (next + 1) (l ++ [r]) = true := by
  induction l with
  | nil => exact (numberedTo_cons _ _ _).mpr ⟨by rw [hr]; simp, rfl⟩
  | cons q l ih =>
    obtain ⟨hq, hl⟩ := (numberedTo_cons _ _ _).mp h
    refine (numberedTo_cons _ _ _).mpr ⟨?_, ih hl⟩
    have hlen : (l.append [r]).length + 1 = (l.length + 1) + 1 := congrArg (· + 1) List.length_append
    rw [hq, hlen, BitVec.ofNat_add (l.length + 1) 1]
    exact (add_sub_add_right_eq_sub next _ 1).symm

/-! ### The law of the capture unit, part by part -/

/-- An input is IDLE, and has no settings, exactly while it has no subscriber (R114). -/
def InputRec.tied (r : InputRec) : Prop :=
  (r.state = .idle ↔ r.subscribers = 0) ∧ (r.settings = none ↔ r.subscribers = 0)

/-- A journal of at most 64 records, numbered up to the counter (R122, R123). -/
def State.journalLaw (s : State) : Prop := s.journal.length ≤ 64 ∧ numberedTo s.captureSeq s.journal = true

theorem captureLaw_iff (s : State) : s.captureLaw ↔ s.journalLaw ∧ ∀ c, (s.input c).tied := and_assoc.symm

/-- Records leave the head, and readers leave records (R125). -/
theorem journalLaw_of_suffix {s t : State} (h : s.journalLaw) (hc : t.captureSeq = s.captureSeq)
    (hj : t.journal.map JournalRec.seq <:+ s.journal.map JournalRec.seq) : t.journalLaw := by
  obtain ⟨hlen, hnum⟩ := h
  refine ⟨?_, ?_⟩
  · have := hj.length_le
    simp only [List.length_map] at this
    omega
  · obtain ⟨l, hl, hs⟩ : ∃ l, l <:+ s.journal ∧ t.journal.map JournalRec.seq = l.map JournalRec.seq := by
      refine ⟨s.journal.drop (s.journal.length - t.journal.length), List.drop_suffix _ _, ?_⟩
      have := List.suffix_iff_eq_drop.mp hj
      rwa [List.length_map, List.length_map, ← List.map_drop] at this
    rw [hc]
    exact numberedTo_congr hs (numberedTo_of_suffix hl hnum)

/-- The laws of the queues and of the capture unit. -/
abbrev State.boundLaws (s : State) : Prop := s.queueLaw ∧ s.captureLaw

section Work

variable {s t : State} (h : s.boundLaws)
include h

theorem Telling.boundLaws (a : Telling s t) : t.boundLaws := by
  obtain ⟨hqueue, hcapture⟩ := h
  refine ⟨fun n => a.port n (hqueue n), ?_⟩
  unfold State.captureLaw State.input
  rw [a.inputs, a.journal, a.captureSeq]
  exact hcapture

/-- Work on the capture unit's records that changes no port and adds no record. -/
theorem boundLaws_of_records (hp : t.ports = s.ports) (hc : t.captureSeq = s.captureSeq)
    (hj : t.journal.map JournalRec.seq <:+ s.journal.map JournalRec.seq) (hi : ∀ c, (t.input c).tied) :
    t.boundLaws := by
  obtain ⟨hqueue, hcapture⟩ := h
  refine ⟨fun n => ?_, (captureLaw_iff t).mpr ⟨journalLaw_of_suffix ((captureLaw_iff s).mp hcapture).1 hc hj, hi⟩⟩
  rw [State.port, hp]
  exact hqueue n

theorem boundLaws_setPort (n : StationNo) {r : PortRec} (hr : (s.port n).queued → r.queued) :
    (s.setPort n r).boundLaws := (telling_setPort s n hr).boundLaws h

/-! ### Inputs (R114) -/

theorem boundLaws_tied (c : InputNo) : (s.input c).tied := ((captureLaw_iff s).mp h.2).2 c

theorem boundLaws_setInput (c : InputNo) {r : InputRec} (hr : r.tied) : (s.setInput c r).boundLaws := by
  refine boundLaws_of_records h rfl rfl List.suffix_rfl fun x => ?_
  rw [State.setInput_input]
  split
  · exact hr
  · exact boundLaws_tied h x

end Work

theorem tied_of_state {r : InputRec} (h : r.tied) {x : InputState} (hx : r.state ≠ .idle) (hx' : x ≠ .idle) :
    ({ r with state := x } : InputRec).tied := by
  obtain ⟨hidle, hsettings⟩ := h
  exact ⟨⟨fun e => absurd e hx', fun e => absurd (hidle.mpr e) hx⟩, hsettings⟩

theorem tied_powerOn : InputRec.powerOn.tied := ⟨⟨fun _ => rfl, fun _ => rfl⟩, ⟨fun _ => rfl, fun _ => rfl⟩⟩

theorem tied_leave {r : InputRec} (h : r.tied) (n : StationNo) : (r.leave n).tied := by
  obtain ⟨hidle, hsettings⟩ := h
  unfold InputRec.leave
  split
  · exact tied_powerOn
  · rename_i hleft
    have hsub : r.subscribers ≠ 0 := fun e => hleft (by rw [e]; exact BitVec.zero_and)
    exact ⟨⟨fun e => absurd (hidle.mp e) hsub, fun e => absurd e hleft⟩,
      ⟨fun e => absurd (hsettings.mp e) hsub, fun e => absurd e hleft⟩⟩

theorem oneStation_ne_zero : ∀ n : StationNo, oneStation n ≠ 0 := by decide

theorem tied_join {r : InputRec} (h : r.tied) (n : StationNo) (x : InputSettings) : (r.join n x).tied := by
  obtain ⟨hidle, hsettings⟩ := h
  unfold InputRec.join
  split
  · exact ⟨⟨nofun, fun e => absurd e (oneStation_ne_zero n)⟩, ⟨nofun, fun e => absurd e (oneStation_ne_zero n)⟩⟩
  · rename_i hsub
    have hor : r.subscribers ||| oneStation n ≠ 0 := fun e => hsub (BitVec.or_eq_zero_iff.mp e).1
    exact ⟨⟨fun e => absurd (hidle.mp e) hsub, fun e => absurd e hor⟩,
      ⟨fun e => absurd (hsettings.mp e) hsub, fun e => absurd e hor⟩⟩

theorem tied_stopSampling {r : InputRec} (h : r.tied) : r.stopSampling.tied := by
  unfold InputRec.stopSampling
  split
  · exact h
  · rename_i hs; exact tied_of_state h (by rw [hs]; nofun) nofun
  · rename_i hs; exact tied_of_state h (by rw [hs]; nofun) nofun

/-! ### The journal -/

/-- Head removal takes records from the head alone (R125). -/
theorem headRemoval_suffix (s : State) : s.headRemoval.journal <:+ s.journal := List.dropWhile_suffix _

/-- Only the lost counts change. -/
theorem countLost_eq (s : State) (x : StationSet) :
    s.countLost x = { s with journalLost := (s.countLost x).journalLost } :=
  foldl_frame (R := fun s t => t = { s with journalLost := t.journalLost }) (fun _ => rfl)
    (fun {_ _ _} a b => by rw [b, a]) (fun _ _ => rfl) _ s

/-- Each station of the set counts one more loss, once (R124). -/
theorem countLost_lostOf (s : State) (x : StationSet) (n : StationNo) :
    (s.countLost x).lostOf n = if inSet x n = true then satInc (s.lostOf n) else s.lostOf n := by
  have key : ∀ (l : List StationNo), l.Nodup → ∀ u : State,
      (l.foldl (fun s n => s.setLost n (satInc (s.lostOf n))) u).lostOf n =
        if n ∈ l then satInc (u.lostOf n) else u.lostOf n := by
    intro l
    induction l with
    | nil => exact fun _ _ => rfl
    | cons m l ih =>
      intro hd u
      obtain ⟨hm, hl⟩ := List.nodup_cons.mp hd
      rw [List.foldl_cons, ih hl, State.setLost_lostOf]
      by_cases e : n = m
      · rw [e, if_neg hm, if_pos rfl, if_pos List.mem_cons_self]
      · simp [e]
  unfold State.countLost
  rw [key _ ((List.nodup_finRange 4).filter _)]
  simp

/-- The journal with room for one more record: one of 64 loses its head, and head removal runs (R124, R125). -/
def State.roomy (s : State) : List JournalRec :=
  if 64 ≤ s.journal.length then s.journal.tail.dropWhile (fun r => r.readers == 0) else s.journal

/-- The readers against whom the head of a journal of 64 counts as lost (R124). -/
def State.losers (s : State) : StationSet :=
  if 64 ≤ s.journal.length then (s.journal.head?.map JournalRec.readers).getD 0 else 0

theorem countLost_zero (s : State) : s.countLost 0 = s := by
  have h : (List.finRange 4).filter (inSet 0) = [] := by decide
  rw [State.countLost, h]
  rfl

theorem countLost_withJournal (s : State) (l : List JournalRec) (x : StationSet) :
    ({ s with journal := l } : State).countLost x = { s.countLost x with journal := l } := by
  unfold State.countLost
  refine List.foldl_hom (fun u : State => { u with journal := l }) (init := s) ?_
  exact fun _ _ => rfl

/-- Step 1 of an acceptance (R124). -/
theorem makeRoom_eq_countLost (s : State) : s.makeRoom = { s.countLost s.losers with journal := s.roomy } := by
  unfold State.makeRoom State.roomy State.losers Config.journalRecords
  split
  · rename_i hroom
    rw [if_neg (Nat.not_le_of_lt hroom), if_neg (Nat.not_le_of_lt hroom), countLost_zero]
  · rename_i hfull
    rw [if_pos (Nat.le_of_not_lt hfull), if_pos (Nat.le_of_not_lt hfull)]
    split
    · rename_i hj; rw [hj] at hfull; exact absurd (by decide) hfull
    · rename_i r rest hj
      rw [hj, countLost_withJournal]
      rfl

theorem makeRoom_eq (s : State) :
    s.makeRoom = { s with journal := s.roomy, journalLost := s.makeRoom.journalLost } := by
  rw [makeRoom_eq_countLost, countLost_eq]

theorem makeRoom_lostOf (s : State) (n : StationNo) :
    s.makeRoom.lostOf n = if inSet s.losers n = true then satInc (s.lostOf n) else s.lostOf n := by
  rw [makeRoom_eq_countLost]
  exact countLost_lostOf s s.losers n

theorem roomy_suffix (s : State) : s.roomy <:+ s.journal := by
  unfold State.roomy
  split
  · exact (List.dropWhile_suffix _).trans (List.tail_suffix _)
  · exact List.suffix_rfl

theorem roomy_length {s : State} (h : s.journal.length ≤ 64) : s.roomy.length ≤ 63 := by
  unfold State.roomy
  split
  · have := (List.dropWhile_suffix (fun r : JournalRec => r.readers == 0) (l := s.journal.tail)).length_le
    rw [List.length_tail] at this
    omega
  · omega

theorem map_seq_leave (n : StationNo) (l : List JournalRec) :
    (l.map (JournalRec.leave n)).map JournalRec.seq = l.map JournalRec.seq := by
  rw [List.map_map]; rfl

theorem map_seq_leaveInput (n : StationNo) (c : InputNo) (l : List JournalRec) :
    (l.map (JournalRec.leaveInput n c)).map JournalRec.seq = l.map JournalRec.seq := by
  rw [List.map_map]
  refine List.map_congr_left fun r _ => ?_
  unfold JournalRec.leaveInput
  dsimp only [Function.comp_apply]
  split <;> rfl

theorem map_seq_readOut (n : StationNo) : ∀ (k : Nat) (l : List JournalRec),
    (readOut n k l).map JournalRec.seq = l.map JournalRec.seq
  | 0, l => by rw [readOut]
  | _ + 1, [] => rfl
  | k + 1, r :: rest => by
    unfold readOut
    split
    · exact congrArg (r.seq :: ·) (map_seq_readOut n k rest)
    · exact congrArg (r.seq :: ·) (map_seq_readOut n (k + 1) rest)

/-! ### The capture unit's work -/

section Capture

variable {s : State} (h : s.boundLaws)
include h

/-- A record joins a journal that has made room for it (R122, R124). -/
theorem boundLaws_appendRecord (c : InputNo) (d : Direction) (e : Time) :
    (s.makeRoom.appendRecord c d e).boundLaws := by
  obtain ⟨hqueue, hcapture⟩ := h
  obtain ⟨⟨hlen, hnum⟩, htied⟩ := (captureLaw_iff s).mp hcapture
  rw [makeRoom_eq]
  refine ⟨hqueue, (captureLaw_iff _).mpr ⟨⟨?_, ?_⟩, htied⟩⟩
  · show (s.roomy ++ [_]).length ≤ 64
    rw [List.length_append, List.length_singleton]
    exact Nat.succ_le_succ (roomy_length hlen)
  · exact numberedTo_append rfl (numberedTo_of_suffix (roomy_suffix s) hnum)

theorem boundLaws_accept (c : InputNo) (d : Direction) (e : Time) : (s.accept c d e).boundLaws :=
  ((telling_appendNotices _ _ _).trans (telling_triggerAll _ c e)).boundLaws (boundLaws_appendRecord h c d e)

/-- A sampled input stays sampled (R115 to R117). -/
theorem boundLaws_setInputState {c : InputNo} {x : InputState} (hs : (s.input c).state ≠ .idle) (hx : x ≠ .idle) :
    (s.setInputState c x).boundLaws := boundLaws_setInput h c (tied_of_state (boundLaws_tied h c) hs hx)

theorem boundLaws_transition {c : InputNo} (hs : (s.input c).state ≠ .idle) (x : InputSettings)
    (reference level : Level) : (s.transition c x reference level).boundLaws := by
  have hwatch := boundLaws_setInputState h hs (x := .watching (some level)) nofun
  unfold State.transition
  split
  · split
    · exact boundLaws_accept hwatch c _ _
    · exact boundLaws_setInputState h hs (x := .filtering _ _) nofun
  · exact hwatch

theorem boundLaws_filterSample {c : InputNo} (hs : (s.input c).state ≠ .idle) (x : InputSettings)
    (reference : Level) (edge : EdgeInFilter) (level : Level) :
    (s.filterSample c x reference edge level).boundLaws := by
  have hwatch := fun x => boundLaws_setInputState h hs (x := .watching (some x)) nofun
  unfold State.filterSample
  split
  · split
    · exact boundLaws_accept (hwatch level) c _ _
    · exact hwatch reference
  · split
    · exact hwatch reference
    · exact h

theorem boundLaws_sample (c : InputNo) (level : Level) : (s.sample c level).boundLaws := by
  unfold State.sample
  split
  · split
    · rename_i hs
      exact boundLaws_setInputState h (by rw [hs]; nofun) (x := .watching (some level)) nofun
    · rename_i hs _
      split
      · exact h
      · exact boundLaws_transition h (by rw [hs]; nofun) _ _ _
    · rename_i hs _
      exact boundLaws_filterSample h (by rw [hs]; nofun) _ _ _ _
    · exact h
  · exact h

theorem boundLaws_stopSampling : s.stopSampling.boundLaws :=
  boundLaws_of_records h rfl rfl List.suffix_rfl fun c => by
    rw [stopSampling_input]
    exact tied_stopSampling (boundLaws_tied h c)

theorem boundLaws_headRemoval : s.headRemoval.boundLaws := by
  have htied := boundLaws_tied h
  exact boundLaws_of_records h rfl rfl ((headRemoval_suffix s).map _) htied

/-- The capture unit's part of a teardown (R131). -/
theorem boundLaws_captureTeardown (n : StationNo) : (s.captureTeardown n).boundLaws := by
  refine boundLaws_headRemoval (boundLaws_of_records h rfl rfl ?_ fun c => ?_)
  · rw [map_seq_leave]
  · simp only [State.input, Fin.getElem_fin, Vector.getElem_map]
    exact tied_leave (boundLaws_tied h c) n

theorem boundLaws_teardown (n : StationNo) (lapsed : Bool) : (s.teardown n lapsed).boundLaws :=
  (telling_disarm _ n).boundLaws (boundLaws_captureTeardown
    ((((telling_setStation s n _).trans (telling_orderTeardown _ n)).trans (telling_claimTeardown _ n)).boundLaws h) n)

theorem boundLaws_portTeardown (n : StationNo) (keep : Bool) : (s.portTeardown n keep).boundLaws :=
  boundLaws_setPort h n fun hr => hr.teardown keep

theorem boundLaws_lapse (n : StationNo) : (s.lapse n).boundLaws := by
  unfold State.lapse
  split
  · exact boundLaws_portTeardown (boundLaws_teardown h n true) n false
  · exact h

theorem boundLaws_halt : s.halt.boundLaws := by
  unfold State.halt
  split
  · exact boundLaws_stopSampling ((telling_setTb s _).boundLaws h)
  · exact (telling_setTb s _).boundLaws h
  · exact h

end Capture

end Sys2Proof.Machine
end

section
/-! The laws of the queues and of the capture unit, kept by every taking of a request, every event and every step. -/

namespace Sys2Proof.Machine

/-! ### The owners -/

section Owners

variable (p : StationNo) (f : RequestFrame) (s : State)

theorem telling_portStatusOwner : Telling s (portStatusOwner p f s).state := by
  unfold portStatusOwner
  split
  · dsimp only
    split
    · exact telling_setPort s p fun h => h
    · exact .refl s
  · exact .refl s

theorem telling_bindOwner : Telling s (bindOwner p f s).state := by
  unfold bindOwner
  split
  · exact .refl s
  · split
    · exact .refl s
    · exact (telling_setStation s p _).trans (telling_setPort _ p fun h => h)

theorem telling_timeStartImmediateOwner : Telling s (timeStartImmediateOwner p f s).state := by
  unfold timeStartImmediateOwner
  split
  · exact .refl s
  · exact (telling_setTb s _).trans (telling_appendNotices _ _ _)

theorem telling_timeStartOnMarkOwner : Telling s (timeStartOnMarkOwner p f s).state := by
  unfold timeStartOnMarkOwner
  split
  · exact .refl s
  · exact telling_setTb s _

theorem telling_claimOwner : Telling s (claimOwner p f s).state := by
  unfold claimOwner
  split
  · exact .refl s
  · split
    · exact Telling.trans (t := { s with claimCounter := s.nextClaimId }) (.of_same rfl rfl rfl rfl)
        (telling_grant _ _)
    · split
      · exact .refl s
      · split
        · exact .refl s
        · exact .of_same rfl rfl rfl rfl

theorem telling_releaseOwner : Telling s (releaseOwner p f s).state := by
  unfold releaseOwner
  split
  · exact .refl s
  · split
    · exact ((telling_removeOrders s _).trans (telling_giveUp _ _ _)).trans (telling_grantScan _)
    · split
      · exact (telling_waiting s _).trans (telling_grantScan _)
      · exact .refl s

theorem telling_shapeOwner : Telling s (shapeOwner p f s).state := by
  unfold shapeOwner
  split
  · exact .refl s
  · split
    · exact .refl s
    · split
      · exact .refl s
      · split
        · exact .refl s
        · exact (shape_frame s _ _).telling

theorem telling_lineReadOwner : Telling s (lineReadOwner p f s).state := by
  unfold lineReadOwner
  split <;> exact .refl s

theorem telling_bindPair (k : PairNo) (gap : Byte) : Telling s (s.bindPair k gap) := by
  unfold State.bindPair
  dsimp only
  split
  · exact .of_same rfl rfl rfl rfl
  · split <;> exact .of_same rfl rfl rfl rfl

theorem telling_pairBindOwner : Telling s (pairBindOwner p f s).state := by
  unfold pairBindOwner
  split
  · exact .refl s
  · exact telling_bindPair s _ _

theorem telling_pairUnbindOwner : Telling s (pairUnbindOwner p f s).state := by
  unfold pairUnbindOwner
  split
  · exact .refl s
  · exact (setPairState_frame s _ _).telling

theorem telling_postOwner : Telling s (postOwner p f s).state := by
  unfold postOwner
  split
  · exact .refl s
  · unfold postArmed
    split
    · exact .refl s
    · split
      · exact .refl s
      · exact .of_same rfl rfl rfl rfl
  · split
    · unfold postFuture
      split
      · exact .refl s
      · exact .of_same rfl rfl rfl rfl
    · exact .refl s
    · exact .refl s
    · unfold postLateFire
      split
      · exact .refl s
      · exact Telling.trans (t := s.fireDue.nextPost.setOrder _ _)
          ((telling_fireDue s).trans (.of_same rfl rfl rfl rfl)) (telling_fireEdge _ _ _ _)

theorem telling_cancelNowOwner : Telling s (cancelNowOwner p f s).state := by
  unfold cancelNowOwner
  split
  · exact .refl s
  · exact telling_cancelOrder s _

theorem telling_cancelAtEndOwner : Telling s (cancelAtEndOwner p f s).state := by
  unfold cancelAtEndOwner
  split
  · exact .refl s
  · split
    · exact telling_setOrder s _ _
    · exact telling_cancelOrder s _

theorem telling_reviseOwner : Telling s (reviseOwner p f s).state := by
  unfold reviseOwner
  split
  · exact .refl s
  · split <;> exact telling_setOrder s _ _

theorem telling_flushOwner : Telling s (flushOwner p f s).state := by
  unfold flushOwner
  split
  · exact .refl s
  · split
    · exact .refl s
    · exact .foldl telling_cancelOrder _ s

theorem telling_orderReadOwner : Telling s (orderReadOwner p f s).state := by
  unfold orderReadOwner
  split <;> exact .refl s

theorem telling_guardMapOwner : Telling s (guardMapOwner p f s).state := by
  unfold guardMapOwner
  split
  · exact .refl s
  · exact telling_remap s _ _

theorem telling_rearmOwner : Telling s (rearmOwner p f s).state := by
  unfold rearmOwner
  split
  · exact .refl s
  · split
    · exact .refl s
    · split
      · exact .refl s
      · split
        · exact .refl s
        · exact Telling.trans (t := s.setGroup _ _) (.of_same rfl rfl rfl rfl) (telling_appendNotices _ _ _)

variable {s} (h : s.boundLaws)
include h

theorem boundLaws_timeStopOwner : (timeStopOwner p f s).state.boundLaws := by
  unfold timeStopOwner
  split
  · exact h
  · exact boundLaws_halt h

theorem boundLaws_subscribeOwner : (subscribeOwner p f s).state.boundLaws := by
  have hjoin := fun c x => boundLaws_setInput h c (tied_join (boundLaws_tied h c) p x)
  unfold subscribeOwner
  split
  · exact h
  · split
    · split
      · exact hjoin _ _
      · split
        · exact hjoin _ _
        · exact h
    · exact hjoin _ _

theorem boundLaws_unsubscribeOwner : (unsubscribeOwner p f s).state.boundLaws := by
  unfold unsubscribeOwner
  split
  · exact h
  · rename_i c _
    split
    · exact h
    · have horders := (telling_removeOrders s (s.armedSlots p c)).boundLaws h
      have htied := boundLaws_tied horders
      have hreaders := boundLaws_of_records (t := { s.removeOrders (s.armedSlots p c) with
          journal := (s.removeOrders (s.armedSlots p c)).journal.map (JournalRec.leaveInput p c) }) horders rfl rfl
        (by rw [map_seq_leaveInput]) htied
      exact boundLaws_headRemoval (boundLaws_setInput hreaders c (tied_leave (boundLaws_tied hreaders c) p))

theorem boundLaws_readCapturesOwner : (readCapturesOwner p f s).state.boundLaws := by
  have htied := boundLaws_tied h
  unfold readCapturesOwner
  split
  · exact boundLaws_headRemoval (boundLaws_of_records h rfl rfl (by rw [map_seq_readOut]) htied)
  · exact h

end Owners

/-! ### Takings -/

/-- A port whose transmitter has chosen, with any reply in its slot before. -/
theorem boundLaws_choose {s : State} (h : s.boundLaws) (p : StationNo) {r : PortRec}
    (hn : r.notices.length ≤ 8) (hr : r.requests.length ≤ 2) : ((s.setPort p r).transmitChoice p).boundLaws := by
  unfold State.transmitChoice
  rw [State.setPort_port_self, State.setPort_setPort]
  exact boundLaws_setPort h p fun _ => queued_choose hn hr _ _

theorem boundLaws_answer {s : State} (h : s.boundLaws) (p : StationNo) (f : RequestFrame) (c : ReplyCode)
    (payload : List Byte) : (s.answer p f c payload).boundLaws :=
  boundLaws_choose h p (h.1 p).1 (h.1 p).2.1

theorem boundLaws_replay {s : State} (h : s.boundLaws) (p : StationNo) (r : Reply) : (s.replay p r).boundLaws := by
  have hlease : (s.restartIfBound p).boundLaws := by
    unfold State.restartIfBound
    split
    · exact (telling_setStation s p _).boundLaws h
    · exact h
  exact boundLaws_choose hlease p (hlease.1 p).1 (hlease.1 p).2.1

/-- What an owner keeps, the serving of its request keeps (R155). -/
theorem boundLaws_serve {p : StationNo} {row : RequestFrame → Bool}
    {owner : StationNo → RequestFrame → State → OwnerReply}
    (ho : ∀ f u, u.boundLaws → (owner p f u).state.boundLaws) {s : State} (h : s.boundLaws) :
    (s.serve p row owner).boundLaws := by
  have hdequeue : (s.dequeue p).boundLaws := boundLaws_setPort h p fun hr => hr.tail
  unfold State.serve
  split
  · exact h
  · rename_i f _
    split
    · split
      · exact boundLaws_replay hdequeue p _
      · have hlease : ((s.dequeue p).restartIfCurrent p f.session).boundLaws := by
          unfold State.restartIfCurrent
          split
          · exact (telling_setStation _ p _).boundLaws hdequeue
          · exact hdequeue
        unfold State.execute
        dsimp only
        split
        · exact boundLaws_answer hlease p f _ _
        · have hanswer := boundLaws_answer (ho f _ hlease) p f
          split
          · exact boundLaws_portTeardown (hanswer _ _) p true
          · exact hanswer _ _
    · exact h

theorem boundLaws_take {p : StationNo} {row : RequestFrame → Bool}
    {owner : StationNo → RequestFrame → State → OwnerReply}
    (ho : ∀ f u, u.boundLaws → (owner p f u).state.boundLaws) {s : State} (h : s.boundLaws) :
    (s.take p row owner).boundLaws := by
  rcases take_eq_lapse_or_serve s p row owner with e | e <;> rw [e]
  · exact boundLaws_lapse h p
  · exact boundLaws_serve ho h

theorem boundLaws_rowOwner (c : Instr) (p : StationNo) (f : RequestFrame) (s : State) (h : s.boundLaws) :
    (rowOwner c p f s).state.boundLaws := by
  cases c with
  | bind => exact (telling_bindOwner p f s).boundLaws h
  | unbind => exact boundLaws_teardown h p false
  | portStatus => exact (telling_portStatusOwner p f s).boundLaws h
  | timeStartImmediate => exact (telling_timeStartImmediateOwner p f s).boundLaws h
  | timeStartOnMark => exact (telling_timeStartOnMarkOwner p f s).boundLaws h
  | timeStop => exact boundLaws_timeStopOwner p f h
  | claim => exact (telling_claimOwner p f s).boundLaws h
  | release => exact (telling_releaseOwner p f s).boundLaws h
  | shape => exact (telling_shapeOwner p f s).boundLaws h
  | lineRead => exact (telling_lineReadOwner p f s).boundLaws h
  | pairBind => exact (telling_pairBindOwner p f s).boundLaws h
  | pairUnbind => exact (telling_pairUnbindOwner p f s).boundLaws h
  | post => exact (telling_postOwner p f s).boundLaws h
  | cancelNow => exact (telling_cancelNowOwner p f s).boundLaws h
  | cancelAtEnd => exact (telling_cancelAtEndOwner p f s).boundLaws h
  | revise => exact (telling_reviseOwner p f s).boundLaws h
  | flush => exact (telling_flushOwner p f s).boundLaws h
  | orderRead => exact (telling_orderReadOwner p f s).boundLaws h
  | guardMap => exact (telling_guardMapOwner p f s).boundLaws h
  | rearm => exact (telling_rearmOwner p f s).boundLaws h
  | subscribe => exact boundLaws_subscribeOwner p f h
  | unsubscribe => exact boundLaws_unsubscribeOwner p f h
  | readCaptures => exact boundLaws_readCapturesOwner p f h
  | _ => exact h

theorem boundLaws_requestOwner (p : StationNo) (f : RequestFrame) (u : State) (h : u.boundLaws) :
    (requestOwner p f u).state.boundLaws := by
  obtain ⟨c, -, -, -, ho⟩ := requestOwner_eq_rowOwner p f
  rw [ho]
  exact boundLaws_rowOwner c p f u h

theorem boundLaws_takeDue {s : State} (h : s.boundLaws) : s.takeDue.boundLaws :=
  foldl_kept (P := State.boundLaws) (fun _ p hu =>
    boundLaws_take (boundLaws_requestOwner p) (boundLaws_take (boundLaws_requestOwner p) hu)) _ s h

theorem boundLaws_serveDue {s : State} (h : s.boundLaws) : s.serveDue.boundLaws :=
  foldl_kept (P := State.boundLaws) (fun _ p hu =>
    boundLaws_serve (boundLaws_requestOwner p) (boundLaws_serve (boundLaws_requestOwner p) hu)) _ s h

/-! ### Events -/

section Events

variable {s : State} (h : s.boundLaws)
include h

theorem boundLaws_expireOwed : s.expireOwed.boundLaws :=
  foldl_kept (P := State.boundLaws) (fun _ n hu => boundLaws_lapse hu n) _ _
    (((telling_armExpiry s).trans (telling_expireWaits _)).boundLaws h)

theorem boundLaws_closeFilter (c : InputNo) : (s.closeFilter c).boundLaws := by
  unfold State.closeFilter
  split
  · exact boundLaws_sample h c _
  · exact h

omit h in
theorem telling_advance (s : State) : Telling s s.advance := .of_same rfl rfl rfl rfl

omit h in
theorem telling_leaseUnitEnds (s : State) : Telling s s.leaseUnitEnds := .of_same rfl rfl rfl rfl

omit h in
theorem telling_armUnitEnds (s : State) : Telling s s.armUnitEnds := .of_same rfl rfl rfl rfl

theorem boundLaws_tick : s.tick.boundLaws := by
  unfold State.tick
  split
  · have hwork := ((telling_fireDue s).trans (completeGaps_frame _).telling).boundLaws h
    exact (telling_advance _).boundLaws (foldl_kept (P := State.boundLaws) (fun _ c hu => boundLaws_closeFilter hu c) _ _ hwork)
  · exact h

theorem boundLaws_meetBoundary : s.meetBoundary.boundLaws := by
  have hserved := boundLaws_serveDue ((telling_leaseUnitEnds _).boundLaws (boundLaws_expireOwed h))
  unfold State.meetBoundary
  dsimp only
  split
  · exact (telling_armUnitEnds _).boundLaws hserved
  · exact hserved

theorem boundLaws_breakSession (p : StationNo) : (s.breakSession p).boundLaws := by
  unfold State.breakSession
  split
  · exact boundLaws_portTeardown (boundLaws_teardown h p false) p false
  · exact (telling_setStation s p _).boundLaws h
  · exact h

theorem boundLaws_endTransmission (p : StationNo) : (s.endTransmission p).boundLaws :=
  boundLaws_choose h p (h.1 p).1 (h.1 p).2.1

theorem boundLaws_characterTime : s.characterTime.boundLaws := by
  refine Telling.boundLaws h ⟨fun n hn => ?_, rfl, rfl, rfl⟩
  have hport : s.characterTime.port n =
      { s.port n with transmitter := (s.port n).transmitter.characterTime } := Vector.getElem_map ..
  obtain ⟨hnotices, hrequests, hslot⟩ := hn
  rw [hport]
  refine ⟨hnotices, hrequests, fun ht => hslot ?_⟩
  cases hs : (s.port n).transmitter with
  | idle => rfl
  | sending => rw [hs] at ht; cases ht
  | cut => rw [hs] at ht; cases ht

end Events

/-- The power-on values meet the laws (R132, R164). -/
theorem boundLaws_powerOn {t : State} (hp : t.ports = Vector.replicate 4 PortRec.powerOn)
    (hi : t.inputs = Vector.replicate 8 InputRec.powerOn) (hj : t.journal = []) : t.boundLaws := by
  refine ⟨fun n => ?_, (captureLaw_iff t).mpr ⟨⟨?_, ?_⟩, fun c => ?_⟩⟩
  · have hport : t.port n = PortRec.powerOn := by simp [State.port, hp]
    rw [hport]
    decide
  · rw [hj]; exact Nat.zero_le _
  · rw [hj]; rfl
  · have hinput : t.input c = InputRec.powerOn := by simp [State.input, hi]
    rw [hinput]
    exact tied_powerOn

/-! ### Every step -/

theorem boundLaws_working {s t u : State} (h : working s u = .next t) (hs : s.boundLaws) (hu : u.boundLaws) :
    t.boundLaws :=
  KeptBySteps.working (P := State.boundLaws) h hs hu

/-- A command that requests come before keeps what its own work keeps. -/
theorem boundLaws_acting {s t : State} {f : State → State} (h : acting s f = .next t) (hs : s.boundLaws)
    (hf : ∀ u : State, u.boundLaws → (f u).boundLaws) : t.boundLaws :=
  boundLaws_working h hs (hf _ (boundLaws_takeDue hs))

/-- Every command keeps the laws. -/
theorem boundLaws_exec {c : Instr} {s t : State} (h : exec c s = .next t) (hs : s.boundLaws) : t.boundLaws := by
  cases hc : requestRow c with
  | some x =>
    rw [exec_requestRow hc] at h
    cases h
    exact boundLaws_take (fun f u hu => boundLaws_rowOwner c x.1 f u hu) hs
  | none =>
    cases c with
    | frameComplete p data =>
      simp only [exec, execFrameComplete] at h
      refine boundLaws_acting h hs fun u hu => ?_
      split
      · exact boundLaws_setPort hu p fun hr => hr.decideFrame data
      · exact hu
    | frameEndEarly p data marker stop =>
      simp only [exec, execFrameEndEarly] at h
      refine boundLaws_acting h hs fun u hu => ?_
      split
      · exact boundLaws_setPort hu p fun hr => hr.endEarly data marker stop
      · exact hu
    | characterReceived p data marker stop =>
      simp only [exec, execCharacterReceived] at h
      refine boundLaws_acting h hs fun u hu => ?_
      split
      · exact hu
      · exact boundLaws_setPort hu p fun hr => hr.character data marker stop
    | lineBreak p =>
      simp only [exec, execLineBreak] at h
      refine boundLaws_working h hs ?_
      split
      · exact hs
      · exact boundLaws_setPort (boundLaws_breakSession hs p) p fun _ => queued_emptied _
    | breakEnd p =>
      simp only [exec, execBreakEnd] at h
      refine boundLaws_acting h hs fun u hu => ?_
      split
      · exact boundLaws_setPort hu p fun hr => hr
      · exact hu
    | transmitEnd p =>
      simp only [exec, execTransmitEnd] at h
      refine boundLaws_acting h hs fun u hu => ?_
      split
      · exact hu
      · exact boundLaws_endTransmission hu p
    | tick =>
      simp only [exec, execTick] at h
      exact boundLaws_acting h hs fun u hu => boundLaws_tick (boundLaws_expireOwed hu)
    | firing =>
      simp only [exec, execFiring] at h
      refine boundLaws_acting h hs fun u hu => ?_
      split
      · exact (telling_fireDue u).boundLaws hu
      · exact hu
    | gapCompletion k =>
      simp only [exec, execGapCompletion] at h
      refine boundLaws_acting h hs fun u hu => ?_
      split
      · exact (completeGap_frame u k).telling.boundLaws hu
      · exact hu
    | markRisingEdge =>
      simp only [exec, execMarkRisingEdge] at h
      exact boundLaws_acting h hs fun u hu => (telling_markEdge u).boundLaws hu
    | armTimerExpiry =>
      simp only [exec, execArmTimerExpiry] at h
      exact boundLaws_acting h hs fun u hu => (telling_armExpiry u).boundLaws hu
    | leaseBoundary =>
      simp only [exec, execLeaseBoundary] at h
      exact boundLaws_working h hs (boundLaws_meetBoundary hs)
    | leaseExpiry n =>
      simp only [exec, execLeaseExpiry] at h
      exact boundLaws_working h hs (boundLaws_lapse hs n)
    | waitExpiry =>
      simp only [exec, execWaitExpiry] at h
      exact boundLaws_acting h hs fun u hu => (telling_expireWaits u).boundLaws hu
    | guardActivation i =>
      simp only [exec, execGuardActivation] at h
      refine boundLaws_acting h hs fun u hu => ?_
      split
      · exact hu
      · exact (telling_activate u i).boundLaws hu
    | guardDeactivation i =>
      simp only [exec, execGuardDeactivation] at h
      exact boundLaws_acting h hs fun u hu => (telling_setGuard u i false).boundLaws hu
    | captureEdge i level =>
      simp only [exec, execCaptureEdge] at h
      exact boundLaws_acting h hs fun u hu => boundLaws_sample hu i level
    | filterClose i level =>
      simp only [exec, execFilterClose] at h
      refine boundLaws_acting h hs fun u hu => ?_
      split
      · exact boundLaws_sample hu i level
      · exact hu
    | resetBegin =>
      simp only [exec, execResetBegin] at h
      cases h
      exact boundLaws_powerOn rfl rfl rfl
    | powerOnResetEnd a b x y =>
      simp only [exec, execPowerOnResetEnd] at h
      cases h
      split
      · exact boundLaws_powerOn rfl rfl rfl
      · exact hs
    | _ => cases hc

/-- Settles O54: the ports get notices, replies and frames within their bounds, a record joins a journal that has made
room for it, and inputs change by SUBSCRIBE, by leaving and by samples alone. -/
theorem stepKeepsQueuesAndJournal : Obligations.StepKeepsQueuesAndJournal := by
  intro s t hqueue hcapture h
  have hs : s.boundLaws := ⟨hqueue, hcapture⟩
  unfold step at h
  split at h
  · exact boundLaws_acting h hs fun u hu => boundLaws_characterTime (boundLaws_expireOwed hu)
  · exact boundLaws_exec h hs

end Sys2Proof.Machine
end
section
/-! The requests of the capture unit (R119, R120, R127): what SUBSCRIBE, UNSUBSCRIBE and READ_CAPTURES answer, and what
each leaves of the inputs, of the armed orders and of the journal. -/

namespace Sys2Proof.Machine

section Subscribe

/-! ### SUBSCRIBE (R119) -/

/-- The edges setting of a byte below 3: the byte reads as it, and it writes the byte back. -/
theorem edges_of_byte {b : Byte} (hb : b.toNat < 3) :
    Edges.ofByte b = some (if b = 0 then .rising else if b = 1 then .falling else .both) ∧
      (if b = 0 then Edges.rising else if b = 1 then .falling else .both).byte = b := by
  obtain rfl | rfl | rfl : b = 0 ∨ b = 1 ∨ b = 2 := by bv_omega
  · exact ⟨rfl, rfl⟩
  · exact ⟨rfl, rfl⟩
  · exact ⟨rfl, rfl⟩

theorem Edges.ofByte_of_le {b : Byte} (hb : 3 ≤ b.toNat) : Edges.ofByte b = none := by
  have h0 : b ≠ 0 := by bv_omega
  have h1 : b ≠ 1 := by bv_omega
  have h2 : b ≠ 2 := by bv_omega
  rw [Edges.ofByte, if_neg h0, if_neg h1, if_neg h2]

variable {s : State} {p : StationNo} {f : RequestFrame} {c : InputNo} {x : InputSettings}

theorem subscribeForm_of_le (hf : 8 ≤ (f.at 0).toNat ∨ 3 ≤ (f.at 1).toNat) : f.subscribeForm = none := by
  unfold RequestFrame.subscribeForm
  rcases hf with hc | he
  · rw [inRange_of_le hc]
  · rw [Edges.ofByte_of_le he]
    cases inRange 8 (f.at 0) <;> rfl

theorem subscribeForm_of_inRange (hc : (f.at 0).toNat = c.val) (he : (f.at 1).toNat < 3) :
    f.subscribeForm =
      some (c, ⟨if f.at 1 = 0 then .rising else if f.at 1 = 1 then .falling else .both, f.at 2⟩) := by
  unfold RequestFrame.subscribeForm
  rw [inRange_of_toNat hc, (edges_of_byte he).1]

/-- The settings meet an input without subscribers: they are written, whatever stood there. -/
theorem subscribeOwner_idle (hform : f.subscribeForm = some (c, x)) (hsub : (s.input c).subscribers = 0) :
    subscribeOwner p f s =
      { state := s.setInput c ⟨some x, oneStation p, .watching none⟩, outcome := .ok
        payload := subscribePayload x true } := by
  have hjoin : (s.input c).join p x = ⟨some x, oneStation p, .watching none⟩ := if_pos hsub
  rw [← hjoin]
  cases hset : (s.input c).settings with
  | none => simp only [subscribeOwner, hform, hset, hsub, beq_self_eq_true]
  | some y => simp only [subscribeOwner, hform, hset, if_pos hsub]

/-- The settings meet those in force. -/
theorem subscribeOwner_joins (hform : f.subscribeForm = some (c, x)) (hsub : (s.input c).subscribers ≠ 0)
    (hset : (s.input c).settings = some x) :
    subscribeOwner p f s =
      { state := s.setInput c { s.input c with subscribers := (s.input c).subscribers ||| oneStation p }
        outcome := .ok, payload := subscribePayload x false } := by
  have hjoin : (s.input c).join p x = { s.input c with subscribers := (s.input c).subscribers ||| oneStation p } :=
    if_neg hsub
  simp only [subscribeOwner, hform, hset, if_neg hsub, if_true, hjoin]

/-- The settings meet others. -/
theorem subscribeOwner_conflict {y : InputSettings} (hform : f.subscribeForm = some (c, x))
    (hsub : (s.input c).subscribers ≠ 0) (hset : (s.input c).settings = some y) (hne : x ≠ y) :
    subscribeOwner p f s = refuse s .conflict (subscribePayload y false) := by
  simp only [subscribeOwner, hform, hset, if_neg hsub, if_neg hne]

/-- An accepted SUBSCRIBE, by the record its owner writes. -/
theorem exec_subscribe_ok (h : s.admits p f .subscribe) {r : InputRec} {payload : List Byte}
    (ho : subscribeOwner p f ((s.dequeue p).leased p) =
      { state := ((s.dequeue p).leased p).setInput c r, outcome := .ok, payload := payload }) :
    exec (.subscribe p) s = .next (((s.leased p).setInput c r).answered p f .ok payload) :=
  congrArg _ ((take_admitted_eq (owner := subscribeOwner) h (by decide) (rowOf_of_request h.2.1) ho).trans
    (replied_of_ports (s := s) (by rfl) (by rfl) f .ok _))

end Subscribe

/-- Settles O43: the settings asked for are read off the frame, then the input's subscribers and the settings in force
decide. -/
theorem subscribeJoinsInput : Obligations.SubscribeJoinsInput := by
  intro p s f h
  have hrow := rowOf_of_request h.2.1
  refine ⟨fun hf => ?refused, ?accepted⟩
  case refused =>
    refine congrArg _ (take_admitted_refused (owner := subscribeOwner) h (by decide) hrow ?_)
    rw [subscribeOwner, subscribeForm_of_le hf]
  intro c hc he x r
  have hform : f.subscribeForm = some (c, x) := subscribeForm_of_inRange hc he
  refine ⟨fun hsub => ?opens, fun hsub hset => ?joins, fun y hsub hset hne => ?conflict⟩
  case opens =>
    have ho := subscribeOwner_idle (s := (s.dequeue p).leased p) (p := p) hform hsub
    rw [subscribePayload, (edges_of_byte he).2] at ho
    exact exec_subscribe_ok h ho
  case joins =>
    have ho := subscribeOwner_joins (s := (s.dequeue p).leased p) (p := p) hform hsub hset
    rw [subscribePayload, (edges_of_byte he).2] at ho
    exact exec_subscribe_ok h ho
  case conflict =>
    have ho := subscribeOwner_conflict (s := (s.dequeue p).leased p) (p := p) hform hsub hset hne.symm
    have hbyte : y.edges.byte = (match y.edges with | .rising => 0 | .falling => 1 | .both => 2 : Byte) := by
      cases y.edges <;> rfl
    rw [subscribePayload, hbyte] at ho
    exact congrArg _ (take_admitted_unchanged (owner := subscribeOwner) h (by decide) hrow ho)

section Unsubscribe

/-! ### UNSUBSCRIBE (R120) -/

/-- The order is ARMED, station `p`'s, and waits for an edge of input `c`. -/
def armedFor (p : StationNo) (c : InputNo) (o : Order) : Bool :=
  o.station == p && o.state == .armed && (match o.trigger with | some y => y.input == c | none => false)

theorem armedSlots_eq (s : State) (p : StationNo) (c : InputNo) : s.armedSlots p c = s.slotsWith (armedFor p c) := by
  refine congrArg s.slotsWith (funext fun o => ?_)
  unfold armedFor
  cases o.trigger <;> rfl

/-- What an accepted UNSUBSCRIBE leaves: the orders, the input and the journal (R120). -/
theorem unsubscribe_eq (s : State) (p : StationNo) (c : InputNo) :
    s.unsubscribe p c = { (s.without (armedFor p c)).setInput c ((s.input c).leave p) with
      journal := (s.journal.map (JournalRec.leaveInput p c)).dropWhile (fun r => r.readers == 0) } := by
  rw [State.unsubscribe, armedSlots_eq, removeOrders_slotsWith]
  rfl

variable {s : State} {p : StationNo} {f : RequestFrame} {c : InputNo}

theorem unsubscribeOwner_refused (hc : (f.at 0).toNat = c.val) (hsub : inSet (s.input c).subscribers p = false) :
    unsubscribeOwner p f s = refuse s .noSubscription := by
  simp only [unsubscribeOwner, inRange_of_toNat hc, hsub, Bool.not_false, if_true]

theorem unsubscribeOwner_accepted (hc : (f.at 0).toNat = c.val) (hsub : inSet (s.input c).subscribers p = true) :
    unsubscribeOwner p f s =
      { state := s.unsubscribe p c, outcome := .ok, payload := [BitVec.ofNat 8 (s.countOrders (armedFor p c))] } := by
  simp only [unsubscribeOwner, inRange_of_toNat hc, hsub, Bool.not_true, Bool.false_eq_true, if_false, armedSlots_eq]
  rfl

end Unsubscribe

/-- Settles O44: the checks in their order, then the four steps of R120 as one state. -/
theorem unsubscribeLeavesInput : Obligations.UnsubscribeLeavesInput := by
  intro p s f h
  have hrow := rowOf_of_request h.2.1
  refine ⟨fun hf => ?refused, ?inRange⟩
  case refused =>
    refine congrArg _ (take_admitted_refused (owner := unsubscribeOwner) h (by decide) hrow ?_)
    rw [unsubscribeOwner, inRange_of_le hf]
  intro c hc r q
  refine ⟨fun hsub => ?unsubscribed, fun hsub => ?accepted⟩
  case unsubscribed =>
    exact congrArg _ (take_admitted_refused (owner := unsubscribeOwner) h (by decide) hrow
      (unsubscribeOwner_refused hc hsub))
  case accepted =>
    have ho := unsubscribeOwner_accepted (s := (s.dequeue p).leased p) (p := p) hc hsub
    rw [unsubscribe_eq] at ho
    exact congrArg _ ((take_admitted_eq (owner := unsubscribeOwner) h (by decide) hrow ho).trans
      (replied_of_ports (s := s) (by rfl) (by rfl) f .ok _))

section ReadCaptures

/-! ### READ_CAPTURES (R127) -/

/-- What a capture record says of its edge: everything but who has it to read. -/
def JournalRec.facts (r : JournalRec) : Half × InputNo × Direction × Time := (r.seq, r.input, r.direction, r.edgeTime)

/-- Station `n` has the record to read. -/
def JournalRec.names (n : StationNo) (r : JournalRec) : Bool := inSet r.readers n

theorem inSet_dropStation : ∀ (x : StationSet) (n m : StationNo),
    inSet (dropStation x n) m = if m = n then false else inSet x m := by decide

theorem names_leave_self (r : JournalRec) (n : StationNo) : (r.leave n).names n = false := by
  simp [JournalRec.names, JournalRec.leave, inSet_dropStation]

theorem names_leave_other {n m : StationNo} (h : m ≠ n) (r : JournalRec) : (r.leave n).names m = r.names m := by
  simp [JournalRec.names, JournalRec.leave, inSet_dropStation, h]

/-- A read changes nothing that the records say. -/
theorem map_facts_readOut (n : StationNo) : ∀ (k : Nat) (l : List JournalRec),
    (readOut n k l).map JournalRec.facts = l.map JournalRec.facts
  | 0, l => by rw [readOut]
  | _ + 1, [] => rfl
  | k + 1, r :: rest => by
    unfold readOut
    split
    · exact congrArg (r.facts :: ·) (map_facts_readOut n k rest)
    · exact congrArg (r.facts :: ·) (map_facts_readOut n (k + 1) rest)

/-- The reader has its oldest `k` records behind it, and the others as they were. -/
theorem filter_readOut_self (n : StationNo) : ∀ (k : Nat) (l : List JournalRec),
    (readOut n k l).filter (JournalRec.names n) = (l.filter (JournalRec.names n)).drop k
  | 0, l => by rw [readOut, List.drop_zero]
  | _ + 1, [] => rfl
  | k + 1, r :: rest => by
    unfold readOut
    split
    · rename_i hr
      have hr' : r.names n = true := hr
      rw [List.filter_cons_of_neg (by simp [names_leave_self]), List.filter_cons_of_pos hr', List.drop_succ_cons]
      exact filter_readOut_self n k rest
    · rename_i hr
      have hr' : ¬r.names n = true := hr
      rw [List.filter_cons_of_neg hr', List.filter_cons_of_neg hr']
      exact filter_readOut_self n (k + 1) rest

/-- Every other station has what it had to read (R125). -/
theorem filter_readOut_other {n m : StationNo} (h : m ≠ n) : ∀ (k : Nat) (l : List JournalRec),
    ((readOut n k l).filter (JournalRec.names m)).map JournalRec.facts =
      (l.filter (JournalRec.names m)).map JournalRec.facts
  | 0, l => by rw [readOut]
  | _ + 1, [] => rfl
  | k + 1, r :: rest => by
    have hfacts : (r.leave n).facts = r.facts := rfl
    unfold readOut
    split
    · simp only [List.filter_cons, names_leave_other h, apply_ite (List.map JournalRec.facts), List.map_cons, hfacts,
        filter_readOut_other h k rest]
    · simp only [List.filter_cons, apply_ite (List.map JournalRec.facts), List.map_cons,
        filter_readOut_other h (k + 1) rest]

/-- A record without readers is nobody's to read, so head removal takes nothing from any station (R125). -/
theorem filter_dropWhile_unread (n : StationNo) : ∀ l : List JournalRec,
    (l.dropWhile (fun r => r.readers == 0)).filter (JournalRec.names n) = l.filter (JournalRec.names n)
  | [] => rfl
  | r :: rest => by
    rw [List.dropWhile_cons]
    split
    · rename_i hr
      have hnone : ¬r.names n = true := by
        simp [JournalRec.names, beq_iff_eq.mp hr, inSet]
      rw [List.filter_cons_of_neg hnone, filter_dropWhile_unread n rest]
    · rfl

/-- The record at the head after a head removal has a reader (R125). -/
theorem readers_of_head_dropWhile {l : List JournalRec} {r : JournalRec}
    (h : (l.dropWhile (fun r => r.readers == 0)).head? = some r) : r.readers ≠ 0 := by
  have hnot := List.head?_dropWhile_not (fun r : JournalRec => r.readers == 0) l
  rw [h] at hnot
  exact ne_of_beq_false hnot

/-- The byte of a capture entry that names the direction and the input (Table 10-10). -/
theorem captureByte (d : Direction) : ∀ c : InputNo,
    (BitVec.ofBool d.bit ++ 0#4 ++ BitVec.ofNat 3 c.val : Byte) =
      BitVec.ofNat 8 ((match d with | .rising => 0 | .falling => 128) + c.val) := by
  cases d <;> decide

/-- A capture entry byte by byte (Table 10-10). -/
theorem JournalRec.bytes_eq (r : JournalRec) :
    r.bytes = bytes16 r.seq ++ [BitVec.ofNat 8 ((match r.direction with | .rising => 0 | .falling => 128) +
      r.input.val)] ++ bytes32 r.edgeTime := by
  rw [JournalRec.bytes, captureByte]

variable {s : State} {p : StationNo} {f : RequestFrame}

theorem readCapturesOwner_refused (hk : (f.at 0).toNat = 0 ∨ 6 < (f.at 0).toNat) :
    readCapturesOwner p f s = refuse s .badValue := if_neg (by omega)

theorem readCapturesOwner_accepted (hk : 1 ≤ (f.at 0).toNat) (hk' : (f.at 0).toNat ≤ 6) :
    readCapturesOwner p f s =
      { state := s.readCaptures p (f.at 0).toNat, outcome := .ok
        payload := (takenRecords p (f.at 0).toNat s.journal).flatMap JournalRec.bytes ++
          [byteOf (s.unread p - (takenRecords p (f.at 0).toNat s.journal).length), s.lostOf p] } :=
  if_pos ⟨hk, hk'⟩

end ReadCaptures

/-- Settles O45: the owner's answer, then what the read of the journal's first `k` records and the head removal leave
of every station's records. -/
theorem readCapturesTakesOldest : Obligations.ReadCapturesTakesOldest := by
  intro p s f h k mine facts entry
  have hrow := rowOf_of_request h.2.1
  refine ⟨fun hk => ?refused, fun hk hk' => ?read⟩
  case refused =>
    exact congrArg _ (take_admitted_refused (owner := readCapturesOwner) h (by decide) hrow
      (readCapturesOwner_refused hk))
  case read =>
    have hentry : JournalRec.bytes = entry := funext JournalRec.bytes_eq
    have ho := readCapturesOwner_accepted (s := (s.dequeue p).leased p) (p := p) hk hk'
    rw [hentry] at ho
    have hexec : exec (.readCaptures p) s = .next (((s.leased p).readCaptures p k).answered p f .ok
        ((mine.take k).flatMap entry ++ [BitVec.ofNat 8 (mine.length - (mine.take k).length), s.lostOf p])) :=
      congrArg _ ((take_admitted_eq (owner := readCapturesOwner) h (by decide) hrow ho).trans
        (replied_of_ports (s := s) (by rfl) (by rfl) f .ok _))
    refine ⟨_, hexec, rfl, ?own, ?others, fun r => readers_of_head_dropWhile, ?suffix⟩
    case own =>
      exact congrArg (List.map facts) ((filter_dropWhile_unread p _).trans (filter_readOut_self p k _))
    case others =>
      exact fun n hn => (congrArg (List.map facts) (filter_dropWhile_unread n _)).trans (filter_readOut_other hn k _)
    case suffix =>
      have hs := (List.dropWhile_suffix (fun r : JournalRec => r.readers == 0) (l := readOut p k s.journal)).map facts
      rwa [show (readOut p k s.journal).map facts = s.journal.map facts from map_facts_readOut p k _] at hs

end Sys2Proof.Machine
end
section
/-! The samples of an input (R115 to R117), the acceptance of an edge (R122 to R126): the two sample commands as one
`State.sample`, that sample in each state of the input, and the record an acceptance leaves in the journal. -/

namespace Sys2Proof.Machine

section Samples

/-! ### The sample commands, and a sample in each state of its input -/

variable {s : State} {c : InputNo} {level : Level}

theorem exec_captureEdge (hw : s.atWork) : exec (.captureEdge c level) s = .next (s.sample c level) := by
  simp only [exec, execCaptureEdge, acting_atWork hw]

/-- FILTER_CLOSE where no filter closes. -/
theorem exec_filterClose_open (hw : s.atWork) (hcl : s.closingLevel c = none) :
    exec (.filterClose c level) s = .next s := by
  simp only [exec, execFilterClose, acting_atWork hw, hcl, Option.isSome_none, Bool.false_eq_true, if_false]

/-- FILTER_CLOSE where a filter closes is the sample at its close. -/
theorem exec_filterClose_closing {x : Level} (hw : s.atWork) (hcl : s.closingLevel c = some x) :
    exec (.filterClose c level) s = .next (s.sample c level) := by
  simp only [exec, execFilterClose, acting_atWork hw, hcl, Option.isSome_some, if_true]

/-- A sample that changes nothing: both commands leave the state. -/
theorem exec_samples_of_sample_eq (hw : s.atWork) (hs : s.sample c level = s) :
    exec (.captureEdge c level) s = .next s ∧ exec (.filterClose c level) s = .next s := by
  refine ⟨by rw [exec_captureEdge hw, hs], ?_⟩
  cases hcl : s.closingLevel c with
  | none => exact exec_filterClose_open hw hcl
  | some x => rw [exec_filterClose_closing hw hcl, hs]

theorem sample_stopped (hr : s.running = false) : s.sample c level = s :=
  if_neg (by rw [hr]; exact Bool.false_ne_true)

theorem sample_idle (hst : (s.input c).state = .idle) : s.sample c level = s := by
  simp only [State.sample, hst, ite_self]

section Running

variable (hr : s.running = true)
include hr

theorem sample_first (hst : (s.input c).state = .watching none) :
    s.sample c level = s.setInputState c (.watching (some level)) := by
  simp only [State.sample, hr, hst, if_true]

variable {x : InputSettings} (hset : (s.input c).settings = some x)
include hset

theorem sample_watching {reference : Level} (hst : (s.input c).state = .watching (some reference)) :
    s.sample c level = if level = reference then s else s.transition c x reference level := by
  simp only [State.sample, hr, hst, hset, if_true]

theorem sample_filtering {prior : Level} {edge : EdgeInFilter} (hst : (s.input c).state = .filtering prior edge) :
    s.sample c level = s.filterSample c x prior edge level := by
  simp only [State.sample, hr, hst, hset, if_true]

omit hr in
theorem closingLevel_filtering {prior : Level} {edge : EdgeInFilter} (hst : (s.input c).state = .filtering prior edge) :
    s.closingLevel c = if s.tb.t = closeTime edge x then some edge.newLevel else none := by
  simp only [State.closingLevel, hst, hset]

end Running

theorem closingLevel_watching {x : Option Level} (hst : (s.input c).state = .watching x) : s.closingLevel c = none := by
  simp only [State.closingLevel, hst]

/-- The edges setting selects the transition to `level` (R116). -/
theorem selects_iff (x : Edges) (level : Level) :
    x.selects (directionTo level) = true ↔
      x = .both ∨ (x = .rising ∧ level = .high) ∨ (x = .falling ∧ level = .low) := by
  cases x <;> cases level <;> decide

end Samples

/-- Settles O46: the sample in each state of the input, down to the branch of the transition or of the filter. -/
theorem samplesThatAcceptNothing : Obligations.SamplesThatAcceptNothing := by
  intro c level s hw r now selected
  refine ⟨?unsampled, ?first, ?watching, ?filtering⟩
  case unsampled =>
    exact fun h => exec_samples_of_sample_eq hw (h.elim sample_stopped sample_idle)
  case first =>
    exact fun hr hst => (exec_captureEdge hw).trans (congrArg _ (sample_first hr hst))
  case watching =>
    intro hr reference hst x hset
    have hs := sample_watching (level := level) hr hset hst
    have hselected : x.edges.selects (directionTo level) = true ↔ selected x := selects_iff x.edges level
    rw [exec_captureEdge hw, hs]
    refine ⟨fun he => ?_, fun he hsel => ?_, fun he hsel hf => ?_, exec_filterClose_open hw (closingLevel_watching hst)⟩
    · rw [if_pos he]
    · rw [if_neg he, State.transition, if_neg (mt hselected.mp hsel)]
      rfl
    · rw [if_neg he, State.transition, if_pos (hselected.mpr hsel), if_neg hf]
      cases level <;> rfl
  case filtering =>
    intro hr prior e hst x hset
    have hs := sample_filtering (level := level) hr hset hst
    have hcl := closingLevel_filtering hset hst
    refine ⟨fun ht => ?_, fun ht hl => ?_⟩
    · have ht' : s.tb.t ≠ closeTime e x := fun h => ht h.symm
      rw [exec_captureEdge hw, hs, State.filterSample, if_neg ht']
      refine ⟨fun he => ?_, fun he => ?_, exec_filterClose_open hw (hcl.trans (if_neg ht'))⟩
      · rw [if_pos he]
        rfl
      · rw [if_neg he]
    · have ht' : s.tb.t = closeTime e x := ht.symm
      rw [exec_captureEdge hw, exec_filterClose_closing hw (hcl.trans (if_pos ht')), hs, State.filterSample, if_pos ht',
        if_neg hl]
      exact ⟨rfl, rfl⟩

section Acceptance

/-! ### The acceptance of an edge (R122) -/

/-- The acceptance of an edge before its triggers: room, record, CAPTURE_READY (steps 1 to 3 of R122). -/
def State.journalled (s : State) (c : InputNo) (d : Direction) (e : Time) : State :=
  (s.makeRoom.appendRecord c d e).appendNotices
    (fun n => inSet (s.makeRoom.input c).subscribers n && s.makeRoom.unread n == 0)
    (.captureReady s.makeRoom.captureSeq c)

theorem accept_eq (s : State) (c : InputNo) (d : Direction) (e : Time) :
    s.accept c d e = (s.journalled c d e).triggerAll c e := rfl

/-- A sample command that accepts an edge: the level becomes the reference, and the acceptance follows. -/
theorem exec_of_acceptsEdge {cmd : Instr} {c : InputNo} {level : Level} {d : Direction} {e : Time} {s : State}
    (h : s.acceptsEdge cmd c level d e) :
    exec cmd s = .next ((s.setInputState c (.watching (some level))).accept c d e) := by
  obtain ⟨hw, hr, x, hset, ⟨rfl, hf, rfl, ⟨reference, hst, hne⟩, hd⟩ | ⟨hcmd, ⟨prior, hst⟩, ht⟩⟩ := h
  · have hd' : directionTo level = d ∧ x.edges.selects (directionTo level) = true := by
      obtain ⟨rfl, rfl, he⟩ | ⟨rfl, rfl, he⟩ := hd
      · exact ⟨rfl, (selects_iff _ _).mpr (by cases hx : x.edges <;> simp_all)⟩
      · exact ⟨rfl, (selects_iff _ _).mpr (by cases hx : x.edges <;> simp_all)⟩
    obtain ⟨rfl, hsel⟩ := hd'
    rw [exec_captureEdge hw, sample_watching hr hset hst, if_neg hne, State.transition, if_pos hsel, if_pos hf]
  · have ht' : s.tb.t = closeTime ⟨d, e, level⟩ x := ht
    have hs : s.sample c level = (s.setInputState c (.watching (some level))).accept c d e := by
      rw [sample_filtering hr hset hst, State.filterSample, if_pos ht', if_pos rfl]
    obtain rfl | rfl := hcmd
    · rw [exec_captureEdge hw, hs]
    · rw [exec_filterClose_closing hw ((closingLevel_filtering hset hst).trans (if_pos ht')), hs]

/-- Without armed orders there is nothing to trigger. -/
theorem triggerAll_of_unarmed {s : State} {c : InputNo} (h : s.armedOn c = []) (e : Time) : s.triggerAll c e = s := by
  rw [State.triggerAll, h, List.foldl_nil, ← h, State.setArmed_self_same]

variable (s : State) (c : InputNo) (d : Direction) (e : Time)

theorem journalled_frame : OnlyPorts (s.makeRoom.appendRecord c d e) (s.journalled c d e) :=
  appendNotices_frame _ _ _

theorem appendRecord_makeRoom :
    s.makeRoom.appendRecord c d e = { s with
      journal := s.roomy ++ [⟨s.captureSeq, c, d, e, (s.input c).subscribers⟩]
      captureSeq := s.captureSeq + 1
      journalLost := s.makeRoom.journalLost } := by
  rw [State.appendRecord, makeRoom_eq]
  rfl

/-- What the record's acceptance leaves: the journal and its counters, and the ports (R122 to R126). -/
theorem journalled_eq :
    s.journalled c d e = { s with
      journal := s.roomy ++ [⟨s.captureSeq, c, d, e, (s.input c).subscribers⟩]
      captureSeq := s.captureSeq + 1
      journalLost := (s.journalled c d e).journalLost
      ports := (s.journalled c d e).ports } := by
  have hlost : (s.journalled c d e).journalLost = s.makeRoom.journalLost := (journalled_frame s c d e).journalLost
  have hports : s.journalled c d e =
      { s.makeRoom.appendRecord c d e with ports := (s.journalled c d e).ports } := journalled_frame s c d e
  rw [appendRecord_makeRoom] at hports
  rw [hlost]
  exact hports

/-- Each station that lost the head to read counts one loss more (R124). -/
theorem journalled_lostOf (n : StationNo) :
    (s.journalled c d e).lostOf n = if inSet s.losers n = true then satInc (s.lostOf n) else s.lostOf n :=
  ((journalled_frame s c d e).lostOf n).trans (makeRoom_lostOf s n)

/-- CAPTURE_READY goes to each subscriber that had nothing left to read (R126). -/
theorem journalled_port (n : StationNo) :
    (s.journalled c d e).port n =
      s.portTold n (if inSet (s.input c).subscribers n && (s.roomy.filter (JournalRec.names n)).length == 0
        then [.captureReady s.captureSeq c] else []) := by
  rw [← portTold_nil, State.journalled, portTold_appendNotices, appendRecord_makeRoom, makeRoom_eq]
  rfl

theorem unread_eq_zero_iff {l : List JournalRec} {n : StationNo} :
    (l.filter (JournalRec.names n)).length = 0 ↔ ∀ y ∈ l, inSet y.readers n = false := by
  simp only [List.length_eq_zero_iff, List.filter_eq_nil_iff, JournalRec.names, Bool.not_eq_true]

end Acceptance

/-- Settles O47: the acceptance without triggers is the record's, whose journal, lost counts and notices are known. -/
theorem acceptedEdgeIsJournalled : Obligations.AcceptedEdgeIsJournalled := by
  intro cmd c level d e s h harmed r full kept losers
  let sampled := s.setInputState c (.watching (some level))
  have hinput : sampled.input c = { r with state := .watching (some level) } := State.setInput_input_self ..
  have hsub : (sampled.input c).subscribers = r.subscribers := by rw [hinput]
  have hexec := exec_of_acceptsEdge h
  have hready : (sampled.journalled c d e).armedOn c = [] :=
    ((journalled_frame sampled c d e).armedOn c).trans ((congrArg (State.armedOn · c)
      (appendRecord_makeRoom sampled c d e)).trans harmed)
  rw [accept_eq, triggerAll_of_unarmed hready] at hexec
  refine ⟨_, hexec, ?state, fun n => ?lost, fun n => ?port⟩
  case state =>
    have ht := journalled_eq sampled c d e
    rwa [hsub] at ht
  case lost =>
    rw [journalled_lostOf]
    show (if inSet losers n = true then satInc (s.lostOf n) else s.lostOf n) = _
    by_cases hin : inSet losers n = true <;> by_cases hmax : s.lostOf n = 255 <;> simp [hin, hmax, satInc]
  case port =>
    rw [journalled_port, hsub]
    show s.portTold n (if inSet r.subscribers n && (kept.filter (JournalRec.names n)).length == 0
      then [.captureReady s.captureSeq c] else []) = _
    have hunread : (inSet r.subscribers n && (kept.filter (JournalRec.names n)).length == 0) = true ↔
        inSet r.subscribers n = true ∧ ∀ y ∈ kept, inSet y.readers n = false := by
      rw [Bool.and_eq_true, beq_iff_eq, unread_eq_zero_iff]
    by_cases hn : inSet r.subscribers n = true ∧ ∀ y ∈ kept, inSet y.readers n = false
    · rw [if_pos hn, if_pos (hunread.mpr hn)]
    · rw [if_neg hn, if_neg (mt hunread.mp hn), portTold_nil]

end Sys2Proof.Machine
end
section
/-! The triggers of an accepted edge (R129, R130, R69, R108, R109): an order in its slot is fired as if it had never been
written there, the firings that come first leave the ARMED orders alone, and each kind makes its first edge. -/

namespace Sys2Proof.Machine

/-! ### An edge does not read what its own slot holds -/

/-- The place in a list depends on the orders of its slots alone (R62). -/
theorem insertPlace_congr_mem {s t : State} (ht : t.tb.t = s.tb.t) (hq : t.postSeq = s.postSeq) (o : Order) (i : SlotNo)
    {l : List SlotNo} (ho : ∀ j ∈ l, t.order j = s.order j) : t.insertPlace o i l = s.insertPlace o i l := by
  have hb : ∀ b, t.standsBefore o b = s.standsBefore o b := fun b => by
    unfold State.standsBefore State.distance State.age
    rw [ht, hq]
  induction l with
  | nil => rfl
  | cons j rest ih =>
    simp only [State.insertPlace, ho j List.mem_cons_self, hb, ih fun k hk => ho k (List.mem_cons_of_mem _ hk)]

section OwnSlot

variable (s : State) (i : SlotNo) (a : Order)

theorem setOrder_setOrder (o : Order) : (s.setOrder i a).setOrder i o = s.setOrder i o := by
  simp only [State.setOrder, State.setSlot_setSlot, State.setSlot_slot_self]

theorem handle_setOrder : (s.setOrder i a).handle i = s.handle i := by
  simp only [State.handle, State.setOrder, State.setSlot_slot_self]

theorem removeOrder_setOrder : (s.setOrder i a).removeOrder i = s.removeOrder i := by
  have hgeneration : ((s.setOrder i a).slot i).generation = (s.slot i).generation :=
    congrArg Handle.generation (handle_setOrder s i a)
  have hslot : (s.setOrder i a).setSlot i ⟨((s.setOrder i a).slot i).generation + 1, none⟩ =
      s.setSlot i ⟨(s.slot i).generation + 1, none⟩ := by
    rw [hgeneration]
    exact State.setSlot_setSlot ..
  rw [State.removeOrder, hslot]
  rfl

theorem placeOrder_setOrder (o : Order) : (s.setOrder i a).placeOrder i o = s.placeOrder i o := by
  have hothers : ∀ j ∈ s.schedule.filter (fun j => j != i), (s.setOrder i a).order j = s.order j := fun j hj => by
    rw [setOrder_order, if_neg (bne_iff_ne.mp (List.mem_filter.mp hj).2)]
  have hplace := insertPlace_congr_mem (s := s) (t := s.setOrder i a) rfl rfl o i hothers
  have hschedule : (s.setOrder i a).schedule = s.schedule := rfl
  rw [State.placeOrder, setOrder_setOrder, hschedule, hplace]
  rfl

theorem command_setOrder (l : LineNo) (c : LineCommand) :
    (s.setOrder i a).command l c = (s.command l c).setOrder i a := by
  have hframe : s.command l c = { s with lines := (s.command l c).lines, pairs := (s.command l c).pairs } :=
    command_frame s l c
  rw [command_of_same (s := s) (u := s.setOrder i a) rfl]
  conv_rhs => rw [hframe]
  rfl

theorem patternCommands_setOrder (g : GroupNo) (mask levels : BitVec 4) :
    (s.setOrder i a).patternCommands .atTrigger g mask levels =
      (s.patternCommands .atTrigger g mask levels).setOrder i a := by
  unfold State.patternCommands
  refine List.foldl_hom (f := fun u : State => u.setOrder i a) (init := s) fun u j => ?_
  split
  · exact command_setOrder u i a _ _
  · rfl

theorem suppress_setOrder (o : Order) : (s.setOrder i a).suppress i o = s.suppress i o := by
  rw [State.suppress, removeOrder_setOrder, handle_setOrder]
  rfl

theorem fireStep_setOrder (o : Order) (l : LineNo) (x : StepAction) :
    (s.setOrder i a).fireStep .atTrigger i o l x = s.fireStep .atTrigger i o l x := by
  simp only [State.fireStep, State.edgeCommand, command_setOrder, removeOrder_setOrder, handle_setOrder,
    suppress_setOrder]
  rfl

theorem firePattern_setOrder (o : Order) (g : GroupNo) (mask levels : BitVec 4) :
    (s.setOrder i a).firePattern .atTrigger i o g mask levels = s.firePattern .atTrigger i o g mask levels := by
  simp only [State.firePattern, patternCommands_setOrder, removeOrder_setOrder, handle_setOrder, suppress_setOrder]
  rfl

theorem firePulseLeading_setOrder (o : Order) (l : LineNo) (w : Span) :
    (s.setOrder i a).firePulseLeading .atTrigger i o l w = s.firePulseLeading .atTrigger i o l w := by
  simp only [State.firePulseLeading, State.edgeCommand, command_setOrder, placeOrder_setOrder, handle_setOrder,
    suppress_setOrder]
  rfl

theorem firePulseTrailing_setOrder (o : Order) (l : LineNo) :
    (s.setOrder i a).firePulseTrailing .atTrigger i o l = s.firePulseTrailing .atTrigger i o l := by
  simp only [State.firePulseTrailing, State.edgeCommand, command_setOrder, removeOrder_setOrder, handle_setOrder,
    suppress_setOrder]
  rfl

theorem endTrain_setOrder (o : Order) (l : LineNo) (r : EndReason) :
    (s.setOrder i a).endTrain .atTrigger i o l r = s.endTrain .atTrigger i o l r := by
  simp only [State.endTrain, State.edgeCommand, command_setOrder, removeOrder_setOrder, handle_setOrder]
  rfl

theorem widthStep_setOrder (o : Order) (l : LineNo) (x : TrainRec) :
    (s.setOrder i a).widthStep .atTrigger i o l x = s.widthStep .atTrigger i o l x := by
  simp only [State.widthStep, State.edgeCommand, command_setOrder, placeOrder_setOrder, handle_setOrder]
  rfl

theorem periodStart_setOrder (o : Order) (l : LineNo) (x : TrainRec) :
    (s.setOrder i a).periodStart .atTrigger i o l x = s.periodStart .atTrigger i o l x := by
  simp only [State.periodStart, endTrain_setOrder, widthStep_setOrder]

theorem trainTrailing_setOrder (o : Order) (l : LineNo) (x : TrainRec) :
    (s.setOrder i a).trainTrailing .atTrigger i o l x = s.trainTrailing .atTrigger i o l x := by
  simp only [State.trainTrailing, State.edgeCommand, command_setOrder, placeOrder_setOrder]
  rfl

/-- The edge of an order applied at a trigger ends with its own slot written or freed, so what stands there before does
not matter. -/
theorem fireEdge_setOrder (o : Order) :
    (s.setOrder i a).fireEdge .atTrigger i o = s.fireEdge .atTrigger i o := by
  simp only [State.fireEdge, fireStep_setOrder, firePattern_setOrder, firePulseLeading_setOrder,
    firePulseTrailing_setOrder, periodStart_setOrder, trainTrailing_setOrder]

end OwnSlot

/-! ### The firings before a late trigger (R69) -/

/-- An edge changes no slot but its own (R73). -/
theorem EdgeEnd.slot_of_ne {s t : State} {i j : SlotNo} (d : EdgeEnd s i t) (h : j ≠ i) : t.slot j = s.slot j := by
  cases d with
  | @removed v _ hv ht =>
    calc t.slot j = (v.removeOrder i).slot j := ht.slot j
      _ = v.slot j := State.setSlot_slot_ne v i _ h
      _ = s.slot j := hv.slot j
  | @placed v _ o hv _ ht =>
    calc t.slot j = (v.placeOrder i o).slot j := ht.slot j
      _ = v.slot j := State.setSlot_slot_ne v i _ h
      _ = s.slot j := hv.slot j

/-- The firing leaves an ARMED order in its slot: it is never due (R63, R73). -/
theorem fireDue_slot_of_armed {s : State} {i : SlotNo} {o : Order} (hs : Fireable s) (ho : s.order i = some o)
    (harmed : o.state = .armed) : s.fireDue.slot i = s.slot i := by
  refine (fireDue_induction (Q := fun u => u.slot i = s.slot i) hs rfl fun u j a ph hu hq _ ha hst => ?_).1
  have hne : i ≠ j := by
    rintro rfl
    have hsame : u.order i = s.order i := congrArg Slot.order hq
    rw [ha, ho] at hsame
    cases hsame
    rw [harmed] at hst
    cases hst
  exact ((edgeEnd_fireEdge .due j (hu.spans j a ha)).slot_of_ne hne).trans hq

/-! ### The trigger of an ARMED order, by the class of its due time -/

theorem classify_of_near {s : State} {t : Time} (h1 : 1 ≤ (t - s.tb.t).toNat) (h2 : (t - s.tb.t).toNat ≤ 2 ^ s.tb.h) :
    s.classify t = .future := if_pos ⟨h1, h2⟩

section Trigger

variable {e : Time} {v : State} {i : SlotNo} {o : Order} {c : InputNo} {offset : Half} (ho : v.order i = some o)
  (harmed : o.state = .armed) (htrigger : o.trigger = some ⟨c, offset⟩)
include ho harmed htrigger

theorem trigger_future (hc : v.classify (e + offset.setWidth 32) = .future) :
    v.trigger e i = v.placeOrder i { o with state := .scheduled (e + offset.setWidth 32) o.body.firstPhase } := by
  simp only [State.trigger, ho, harmed, htrigger, hc]

theorem trigger_lateRefuse (hc : v.classify (e + offset.setWidth 32) = .late) (hl : o.late = .refuse) :
    v.trigger e i = (v.removeOrder i).told o.station (.ended (v.handle i) o.tag .late v.tb.t) := by
  simp only [State.trigger, ho, harmed, htrigger, hc, hl]
  exact appendNotice_eq_told _ _ _

theorem trigger_lateFire (hc : v.classify (e + offset.setWidth 32) = .late) (hl : o.late = .fire) :
    v.trigger e i = (v.fireDue.setOrder i { o with state := .scheduled v.tb.t o.body.firstPhase }).fireEdge .atTrigger i
      { o with state := .scheduled v.tb.t o.body.firstPhase } := by
  simp only [State.trigger, ho, harmed, htrigger, hc, hl]
  rfl

/-- The firings come before a late trigger, and it then finds the order as it stood (R69, assumption 8). -/
theorem trigger_fireDue (hs : Fireable v) (hc : v.classify (e + offset.setWidth 32) = .late) (hl : o.late = .fire) :
    v.trigger e i = v.fireDue.trigger e i := by
  have htb : v.fireDue.tb = v.tb := (fireDue_frame v).tb
  have ho' : v.fireDue.order i = some o := (congrArg Slot.order (fireDue_slot_of_armed hs ho harmed)).trans ho
  have hc' : v.fireDue.classify (e + offset.setWidth 32) = .late := by
    rw [← hc]
    unfold State.classify State.distance State.horizon
    rw [htb]
  rw [trigger_lateFire ho harmed htrigger hc hl, trigger_lateFire ho' harmed htrigger hc' hl,
    fireDue_of_dueSlots_nil (dueSlots_fireDue hs), htb]

end Trigger

/-! ### The edges of an order applied at a trigger, in a NORMAL group -/

section Normal

variable {s : State} {i : SlotNo} {o : Order} {l : LineNo} (hn : s.groupNormal (groupOf l) = true)
include hn

theorem endTrain_atTrigger (reason : EndReason) :
    s.endTrain .atTrigger i o l reason =
      ((s.command l .deassert).removeOrder i).toldEnded (s.handle i) o reason s.tb.t := by
  rw [State.endTrain, if_pos hn, ended_eq_toldEnded, (edgeCommand_frame s .atTrigger l .deassert).removeOrder_tb]
  rfl

theorem widthStep_atTrigger (x : TrainRec) :
    s.widthStep .atTrigger i o l x =
      ((s.command l (if x.width = 0 then .deassert else .assert)).placeOrder i
        { o with
          body := .train l { x with begun := true }
          started := true
          state := if x.width = 0 ∨ x.width = x.period then .scheduled (s.tb.t + x.period.setWidth 32) .leading
            else .scheduled (s.tb.t + x.width.setWidth 32) .trailing }).toldFired (s.handle i) o s.tb.t := by
  rw [State.widthStep, if_pos hn, fired_eq_toldFired _ (by decide), (edgeCommand_frame s .atTrigger l _).placeOrder_tb]
  rfl

end Normal

section AtTrigger

variable {s : State} {i : SlotNo} {o : Order} (hn : s.groupNormal o.body.group = true)
include hn

theorem fireEdge_step_atTrigger {l : LineNo} {a : StepAction} (hb : o.body = .step l a) :
    s.fireEdge .atTrigger i o = ((s.command l a.command).removeOrder i).toldFired (s.handle i) o s.tb.t := by
  have hn' : s.groupNormal (groupOf l) = true := by rw [hb] at hn; exact hn
  rw [State.fireEdge, hb]
  dsimp only
  rw [State.fireStep, if_pos hn', fired_eq_toldFired _ (by decide), (edgeCommand_frame s .atTrigger l _).removeOrder_tb]
  rfl

theorem fireEdge_pattern_atTrigger {g : GroupNo} {mask levels : BitVec 4} (hb : o.body = .pattern g mask levels) :
    s.fireEdge .atTrigger i o =
      ((s.patternCommands .atTrigger g mask levels).removeOrder i).toldFired (s.handle i) o s.tb.t := by
  have hn' : s.groupNormal g = true := by rw [hb] at hn; exact hn
  rw [State.fireEdge, hb]
  dsimp only
  rw [State.firePattern, if_pos hn', fired_eq_toldFired _ (by decide),
    (patternCommands_frame s .atTrigger g _ _).removeOrder_tb]

theorem fireEdge_pulse_atTrigger {l : LineNo} {w : Span} {e : Time} (hb : o.body = .pulse l w)
    (hs : o.state = .scheduled e .leading) :
    s.fireEdge .atTrigger i o = ((s.command l .assert).placeOrder i
      { o with state := .scheduled (s.tb.t + w.setWidth 32) .trailing, started := true }).toldFired
        (s.handle i) o s.tb.t := by
  have hn' : s.groupNormal (groupOf l) = true := by rw [hb] at hn; exact hn
  rw [State.fireEdge, hb, hs]
  dsimp only
  rw [State.firePulseLeading, if_pos hn', fired_eq_toldFired _ (by decide),
    (edgeCommand_frame s .atTrigger l _).placeOrder_tb, hb]
  rfl

end AtTrigger

theorem fireEdge_train_leading {s : State} {i : SlotNo} {o : Order} {l : LineNo} {x : TrainRec} {e : Time}
    (cause : EdgeCause) (hb : o.body = .train l x) (hs : o.state = .scheduled e .leading) :
    s.fireEdge cause i o = s.periodStart cause i o l x := by
  rw [State.fireEdge, hb, hs]

/-! ### The three outcomes of a period start (R86 to R88) -/

section PeriodStart

variable (s : State) (cause : EdgeCause) (i : SlotNo) (o : Order) (l : LineNo) {x : TrainRec}

theorem periodStart_exhausted (hx : x.begun = true ∧ ∃ n, x.remaining = some n ∧ n.toNat ≤ 1) :
    s.periodStart cause i o l x = s.endTrain cause i o l .complete := by
  rw [State.periodStart, countStep_exhausted hx]

variable (hx : ¬(x.begun = true ∧ ∃ n, x.remaining = some n ∧ n.toNat ≤ 1))
include hx

theorem periodStart_ending (he : o.ending = true) :
    s.periodStart cause i o l x = s.endTrain cause i o l .cancelled := by
  rw [State.periodStart, countStep_counts hx]
  exact if_pos he

theorem periodStart_goesOn (he : o.ending = false) :
    s.periodStart cause i o l x = s.widthStep cause i o l
      { width := match x.pending with | some r => r.width | none => x.width
        period := match x.pending with | some r => r.period | none => x.period
        remaining := if x.begun then x.remaining.map (fun n => n - 1) else x.remaining
        pending := none, begun := x.begun } := by
  rw [State.periodStart, countStep_counts hx]
  dsimp only
  rw [if_neg (by simp [he])]
  exact congrArg (s.widthStep cause i o l) (revise_eq x _)

end PeriodStart

/-! ### The acceptance of an edge, with and without its armed list -/

theorem ports_ext {s t : State} (h : ∀ n, s.port n = t.port n) : s.ports = t.ports :=
  Vector.ext fun n hn => h ⟨n, hn⟩

theorem journalLost_ext {s t : State} (h : ∀ n, s.lostOf n = t.lostOf n) : s.journalLost = t.journalLost :=
  Vector.ext fun n hn => h ⟨n, hn⟩

/-- The record of an edge and its notices have nothing to do with the armed list (R122 to R126). -/
theorem journalled_setArmed (s : State) (c : InputNo) (l : List SlotNo) (d : Direction) (e : Time) :
    (s.setArmed c l).journalled c d e = (s.journalled c d e).setArmed c l := by
  have hlost : ((s.setArmed c l).journalled c d e).journalLost = (s.journalled c d e).journalLost :=
    journalLost_ext fun n => by rw [journalled_lostOf, journalled_lostOf]; rfl
  have hports : ((s.setArmed c l).journalled c d e).ports = (s.journalled c d e).ports :=
    ports_ext fun n => by rw [journalled_port, journalled_port]; rfl
  rw [journalled_eq (s.setArmed c l), hlost, hports]
  conv_rhs => rw [journalled_eq s]
  rfl

/-- The record of an edge moves no order. -/
theorem journalled_orders (s : State) (c : InputNo) (d : Direction) (e : Time) :
    (s.journalled c d e).slots = s.slots ∧ (s.journalled c d e).schedule = s.schedule ∧
      (s.journalled c d e).tb = s.tb ∧ (s.journalled c d e).armedOn c = s.armedOn c := by
  rw [journalled_eq]
  exact ⟨rfl, rfl, rfl, rfl⟩

theorem acceptsEdge_setArmed {cmd : Instr} {c : InputNo} {level : Level} {d : Direction} {e : Time} {s : State}
    (l : List SlotNo) (h : s.acceptsEdge cmd c level d e) : (s.setArmed c l).acceptsEdge cmd c level d e :=
  ⟨(calm_setArmed s c l).atWork h.1, h.2⟩

/-- An accepted edge triggers the armed list of its input, in its order, behind what the same edge does where that list
is empty (R129). -/
theorem acceptedEdge_triggers {cmd : Instr} {c : InputNo} {level : Level} {d : Direction} {e : Time} {s : State}
    (h : s.acceptsEdge cmd c level d e) :
    ∃ u : State, exec cmd (s.setArmed c []) = .next u ∧ u.slots = s.slots ∧ u.schedule = s.schedule ∧ u.tb = s.tb ∧
      exec cmd s = .next ((s.armedOn c).foldl (State.trigger e) u) := by
  let sampled := s.setInputState c (.watching (some level))
  obtain ⟨hslots, hschedule, htb, harmed⟩ := journalled_orders sampled c d e
  have hbare : (sampled.setArmed c []).journalled c d e = (sampled.journalled c d e).setArmed c [] :=
    journalled_setArmed ..
  have hnone : ((sampled.journalled c d e).setArmed c []).armedOn c = [] := State.setArmed_armedOn_self ..
  have hexec := exec_of_acceptsEdge (acceptsEdge_setArmed [] h)
  rw [show (s.setArmed c []).setInputState c (.watching (some level)) = sampled.setArmed c [] from rfl, accept_eq,
    hbare, triggerAll_of_unarmed hnone] at hexec
  refine ⟨_, hexec, hslots, hschedule, htb, ?_⟩
  rw [exec_of_acceptsEdge h, accept_eq, State.triggerAll, harmed]
  rfl

/-- Settles O48: first the acceptance around its triggers, then one trigger by the class of its due time, and for a late
one by the group's state and the order's kind. -/
theorem acceptedEdgeTriggersOrder : Obligations.AcceptedEdgeTriggersOrder := by
  refine ⟨fun cmd c level d e s => acceptedEdge_triggers, ?_⟩
  intro e v i o c offset ho harmed htrigger hh due away h phase
  have hphase : phase = o.body.firstPhase := by cases hb : o.body <;> simp only [phase, hb] <;> rfl
  refine ⟨fun h1 h2 => ?future, fun hlate hl => ?refuse, fun hlate hl hnodup hspans => ?firings,
    fun hlate hl hnone => ?fire⟩
  case future =>
    rw [hphase]
    exact trigger_future ho harmed htrigger (classify_of_near h1 h2)
  all_goals have hc : v.classify due = .late := classify_of_late hlate hh
  case refuse => exact trigger_lateRefuse ho harmed htrigger hc hl
  case firings =>
    have hs : Fireable v := ⟨hnodup, hspans⟩
    have hslot := fireDue_slot_of_armed hs ho harmed
    exact ⟨trigger_fireDue ho harmed htrigger hs hc hl, (noneDue_iff _).mpr (dueSlots_fireDue hs),
      (congrArg Slot.order hslot).trans ho, congrArg Slot.generation hslot, (fireDue_frame v).tb⟩
  case fire =>
    intro o'
    have hfire : v.trigger e i = (v.setOrder i o').fireEdge .atTrigger i o' := by
      have htrig := trigger_lateFire ho harmed htrigger hc hl
      rwa [fireDue_of_dueSlots_nil ((noneDue_iff v).mp hnone), ← hphase] at htrig
    have hedge : v.trigger e i = v.fireEdge .atTrigger i o' := hfire.trans (fireEdge_setOrder v i o' o')
    refine ⟨hfire, fun hg => ?normal, fun hg => ?tripped⟩
    case normal =>
      have hn : v.groupNormal o'.body.group = true := by simpa [State.groupNormal] using hg
      refine ⟨fun l a hb => ?normalStep, fun g m levels hb => ?normalPattern, fun l w hb => ?normalPulse,
        ?normalTrain⟩
      case normalStep =>
        have hstep := hedge.trans (fireEdge_step_atTrigger hn hb)
        cases a <;> exact hstep
      case normalPattern => exact hedge.trans (fireEdge_pattern_atTrigger hn hb)
      case normalPulse =>
        have hs : o'.state = .scheduled v.tb.t .leading := by simp only [o', phase, hb]
        exact hedge.trans (fireEdge_pulse_atTrigger hn hb hs)
      case normalTrain =>
        intro l x hb width period exhausted ended
        have hs : o'.state = .scheduled v.tb.t .leading := by simp only [o', phase, hb]
        have hn' : v.groupNormal (groupOf l) = true := by
          rw [show o'.body = _ from hb] at hn
          exact hn
        have hstart : v.trigger e i = v.periodStart .atTrigger i o' l x :=
          hedge.trans (fireEdge_train_leading .atTrigger hb hs)
        refine ⟨fun hx => ?exhausted, fun hx he => ?ending, fun hx he => ?width⟩
        case exhausted =>
          exact hstart.trans ((periodStart_exhausted v .atTrigger i o' l hx).trans (endTrain_atTrigger hn' .complete))
        case ending =>
          exact hstart.trans ((periodStart_ending v .atTrigger i o' l hx he).trans (endTrain_atTrigger hn' .cancelled))
        case width =>
          exact hstart.trans ((periodStart_goesOn v .atTrigger i o' l hx he).trans (widthStep_atTrigger hn' _))
    case tripped =>
      have hg' : (v.group o'.body.group).state = .tripped := hg
      refine ⟨fun hb => ?suppressed, ?trippedTrain⟩
      case suppressed =>
        exact hedge.trans ((fireEdge_suppressed hg' .atTrigger hb).trans (suppress_eq_told v i o'))
      case trippedTrain =>
        intro l x hb width period finished
        have hs : o'.state = .scheduled v.tb.t .leading := by simp only [o', phase, hb]
        have hstart : v.trigger e i = v.periodStart .atTrigger i o' l x :=
          hedge.trans (fireEdge_train_leading .atTrigger hb hs)
        refine ⟨fun hfinished => ?finished, fun hgoes => ?cadence⟩
        case finished =>
          have hended : ∀ reason, v.endTrain .atTrigger i o' l reason =
              (v.removeOrder i).told o.station (.ended h o.tag .suppressed v.tb.t) :=
            endTrain_suppressed hg' hb .atTrigger
          by_cases hx : x.begun = true ∧ ∃ n, x.remaining = some n ∧ n.toNat ≤ 1
          · exact hstart.trans ((periodStart_exhausted v .atTrigger i o' l hx).trans (hended .complete))
          · exact hstart.trans ((periodStart_ending v .atTrigger i o' l hx (hfinished.resolve_left hx)).trans
              (hended .cancelled))
        case cadence =>
          obtain ⟨hx, he⟩ := not_or.mp hgoes
          exact hstart.trans ((periodStart_goesOn v .atTrigger i o' l hx (Bool.eq_false_of_not_eq_true he)).trans
            (widthStep_tripped hg' hb .atTrigger _))

end Sys2Proof.Machine
end

section
/-! The teardown of a station (R145): what the claim table's part leaves before its grant scan (R51, R81), the teardown
as one record of it, and so what UNBIND and the expiry of a lease leave in every block. -/

namespace Sys2Proof.Machine

/-! ### The state that the grant scan of a teardown finds -/

/-- Revocations touch the line unit's records and the HELD claims alone. -/
theorem revoke_eq (s : State) (l : List Claim) : s.revoke l =
    { s with held := (s.revoke l).held, lines := (s.revoke l).lines, pairs := (s.revoke l).pairs } :=
  foldl_frame (R := fun s t => t = { s with held := t.held, lines := t.lines, pairs := t.pairs })
    (fun _ => rfl) (fun {s t u} a b => by rw [b, a]) (fun s (c : Claim) => by rw [giveUp_eq]) l s

/-- Parts 1 to 3 of a teardown, but for the grant scan (R145): the session has ended, the orders are gone, the HELD
claims are revoked and the WAITING claims have left. -/
def State.stripped (s : State) (n : StationNo) (lapsed : Bool) : State :=
  let u := (s.endSession n lapsed).orderTeardown n
  let v := u.revoke (u.held.filter (fun c => c.station == n))
  { v with waiting := v.waiting.filter (fun w => w.claim.station != n) }

/-- The HELD claims that are left when those of a station are revoked. -/
def State.heldWithout (s : State) (n : StationNo) : List Claim :=
  s.held.filter (fun x => (s.held.filter (fun c => c.station == n)).all (fun c => x.id != c.id))

theorem stripped_eq (s : State) (n : StationNo) (lapsed : Bool) : s.stripped n lapsed =
    { s.without (fun o => o.station == n) with
      held := s.heldWithout n
      waiting := s.waiting.filter (fun w => w.claim.station != n)
      lines := (s.stripped n lapsed).lines, pairs := (s.stripped n lapsed).pairs
      stations := (s.stripped n lapsed).stations } := by
  unfold State.stripped
  dsimp only
  rw [revoke_eq, revoke_held, orderTeardown_eq]
  rfl

/-- No revoked claim is left. -/
theorem station_of_heldWithout {s : State} {n : StationNo} {c : Claim} (h : c ∈ s.heldWithout n) :
    c.station ≠ n := by
  obtain ⟨hc, hall⟩ := List.mem_filter.mp h
  intro e
  have := List.all_eq_true.mp hall c (List.mem_filter.mpr ⟨hc, by simpa using e⟩)
  simp at this

/-- Where no other station's claim shares an id, just the station's own claims are revoked (R37). -/
theorem heldWithout_of_ownIds {s : State} {n : StationNo} (h : s.ownIds n) :
    s.heldWithout n = s.held.filter (fun c => c.station != n) := by
  refine List.filter_congr fun x hx => ?_
  rw [Bool.eq_iff_iff, List.all_eq_true, bne_iff_ne]
  constructor
  · exact fun hall => station_of_heldWithout (List.mem_filter.mpr ⟨hx, List.all_eq_true.mpr hall⟩)
  · intro hne c hc
    obtain ⟨hc, hst⟩ := List.mem_filter.mp hc
    rw [bne_iff_ne]
    exact fun e => hne (h c hc (by simpa using hst) x hx e)

theorem claims_stripped {s : State} {n : StationNo} {lapsed : Bool} {c : Claim}
    (h : c ∈ (s.stripped n lapsed).claims) : c.station ≠ n := by
  rw [stripped_eq] at h
  rcases List.mem_append.mp h with h | h
  · exact station_of_heldWithout h
  · obtain ⟨w, hw, rfl⟩ := List.mem_map.mp h
    simpa using (List.mem_filter.mp hw).2

/-- The lines after the loss actions (R51, R30). -/
theorem stripped_line (s : State) (n : StationNo) (lapsed : Bool) (l : LineNo) :
    (s.stripped n lapsed).line l = { s.line l with
      holder := if s.held.any (fun c => c.station == n && named c.lines l) then none else (s.line l).holder
      asserted := if s.losesSafely n l then (s.line l).safe else (s.line l).asserted } := by
  have h : (s.stripped n lapsed).line l = (((s.endSession n lapsed).orderTeardown n).revoke
      (((s.endSession n lapsed).orderTeardown n).held.filter (fun c => c.station == n))).line l := rfl
  rw [h, revoke_line, orderTeardown_eq, List.any_filter, List.any_filter]
  simp only [State.losesSafely, Bool.and_assoc]
  rfl

/-- The pairs after the loss actions (R30): a bound pair with a line of a claim lost under SAFE. -/
theorem stripped_pair (s : State) (n : StationNo) (lapsed : Bool) (k : PairNo) :
    (s.stripped n lapsed).pair k = if s.pairBound k && s.losesSafely n (primary k) then
        { s.pair k with state := levelState (s.line (primary k)).safe (s.line (partner k)).safe }
      else s.pair k := by
  have h : (s.stripped n lapsed).pair k = (((s.endSession n lapsed).orderTeardown n).revoke
      (((s.endSession n lapsed).orderTeardown n).held.filter (fun c => c.station == n))).pair k := rfl
  have hlost : (s.held.filter (fun c => c.station == n)).any
      (fun c => c.loss == .safe && s.pairTouched c.lines (primary k)) =
      (s.pairBound k && s.losesSafely n (primary k)) := by
    rw [List.any_filter]
    simp only [State.losesSafely, State.pairTouched, pairOf_primary]
    cases s.pairBound k with
    | false => simp
    | true => simp only [Bool.true_and, ← Bool.or_assoc, Bool.or_self, Bool.and_assoc]
  rw [← hlost, h, revoke_pair, orderTeardown_eq]
  rfl

/-! ### The teardown as one record -/

theorem disarm_eq (s : State) (n : StationNo) : s.disarm n =
    { s with tb := { s.tb with arming := if s.tb.arming = some n then none else s.tb.arming } } := by
  unfold State.disarm
  split <;> rfl

/-- The teardown: its grant scan, and then the capture unit's part and the timebase's (R145, R131, R11). -/
theorem teardown_eq (s : State) (n : StationNo) (lapsed : Bool) : s.teardown n lapsed =
    { (s.stripped n lapsed).grantScan with
      tb := { s.tb with arming := if s.tb.arming = some n then none else s.tb.arming }
      inputs := s.inputs.map (InputRec.leave n)
      journal := (s.journal.map (JournalRec.leave n)).dropWhile (fun r => r.readers == 0)
      journalLost := s.journalLost.set n 0 } := by
  have h : s.teardown n lapsed = ((s.stripped n lapsed).grantScan.captureTeardown n).disarm n := rfl
  have hf := grantScan_frame (s.stripped n lapsed)
  have htb : (s.stripped n lapsed).tb = s.tb := by rw [stripped_eq]; rfl
  have hin : (s.stripped n lapsed).inputs = s.inputs := by rw [stripped_eq]; rfl
  have hj : (s.stripped n lapsed).journal = s.journal := by rw [stripped_eq]; rfl
  have hl : (s.stripped n lapsed).journalLost = s.journalLost := by rw [stripped_eq]; rfl
  rw [h, disarm_eq, State.captureTeardown, State.headRemoval]
  dsimp only
  rw [hf.tb, hf.inputs, hf.journal, hf.journalLost, htb, hin, hj, hl]

theorem teardown_stations (s : State) (n : StationNo) (lapsed : Bool) :
    (s.teardown n lapsed).stations = (s.stripped n lapsed).stations := by
  rw [teardown_eq, ← (grantScan_frame (s.stripped n lapsed)).stations]

/-- A station that is torn down is not BOUND (R145). -/
theorem not_bound_teardown (s : State) (n : StationNo) (lapsed : Bool) : (s.teardown n lapsed).isBound n = false := by
  rw [State.isBound, teardown_station, if_pos rfl]
  cases lapsed <;> rfl

theorem not_bound_stripped (s : State) (n : StationNo) (lapsed : Bool) : (s.stripped n lapsed).isBound n = false := by
  have h := not_bound_teardown s n lapsed
  rwa [State.isBound, State.station, teardown_stations] at h

theorem teardown_order {s : State} {n : StationNo} {lapsed : Bool} {i : SlotNo} {o : Order}
    (h : (s.teardown n lapsed).order i = some o) : o.station ≠ n := by
  have e : (s.teardown n lapsed).order i = (s.without (fun o => o.station == n)).order i := by
    rw [teardown_eq]
    exact ((grantScan_frame (s.stripped n lapsed)).order i).trans (by rw [stripped_eq]; rfl)
  rw [e, without_order, Option.filter_eq_some_iff] at h
  simpa using h.2

/-- The claims that a teardown leaves are other stations' (R51). -/
theorem teardown_claims {s : State} {n : StationNo} {lapsed : Bool} {c : Claim}
    (h : c ∈ (s.teardown n lapsed).claims) : c.station ≠ n := by
  rw [teardown_eq] at h
  exact claims_stripped ((grants_grantScan (s.stripped n lapsed)).claims.subset h)

theorem teardown_input (s : State) (n : StationNo) (lapsed : Bool) (c : InputNo) :
    (s.teardown n lapsed).input c = (s.input c).leave n := by
  rw [teardown_eq]
  simp [State.input]

theorem teardown_journal (s : State) (n : StationNo) (lapsed : Bool) : (s.teardown n lapsed).journal =
    (s.journal.map (JournalRec.leave n)).dropWhile (fun r => r.readers == 0) := by
  rw [teardown_eq]

theorem teardown_lostOf (s : State) (n : StationNo) (lapsed : Bool) (m : StationNo) :
    (s.teardown n lapsed).lostOf m = if m = n then 0 else s.lostOf m := by
  rw [teardown_eq]
  exact State.setLost_lostOf s n 0 m

/-- A station torn down has no notice to send: it is told of no grant, and its port stands (R159). -/
theorem teardown_port_self (s : State) (n : StationNo) (lapsed : Bool) :
    (s.teardown n lapsed).port n = s.port n := by
  obtain ⟨granted, hrun, -⟩ := grantScanFrom_run ((s.stripped n lapsed).waiting.length + 1) (s.stripped n lapsed)
  have hp : (s.stripped n lapsed).port n = s.port n := by rw [stripped_eq]; rfl
  have hscan := hrun.port n
  rw [State.portTold, if_neg (by rw [not_bound_stripped]; decide), hp] at hscan
  rw [teardown_eq]
  exact hscan

/-! ### What a teardown leaves -/

/-- The station holds nothing in any block (R145). -/
theorem teardown_emptyHanded (s : State) (n : StationNo) (lapsed : Bool) :
    (s.teardown n lapsed).emptyHanded n := by
  refine ⟨fun i o => teardown_order, ?_, fun c hc => teardown_claims (List.mem_append_left _ hc),
    fun w hw => teardown_claims (List.mem_append_right _ (List.mem_map_of_mem hw)),
    fun c => ?_, fun r hr => ?_, ?_, ?_⟩
  · rw [teardown_station, if_pos rfl]
  · rw [teardown_input, InputRec.leave]
    split
    · simp [InputRec.powerOn, inSet]
    · exact (inSet_dropStation _ n n).trans (if_pos rfl)
  · rw [teardown_journal] at hr
    obtain ⟨x, -, rfl⟩ := List.mem_map.mp ((List.dropWhile_suffix _).subset hr)
    exact (inSet_dropStation _ n n).trans (if_pos rfl)
  · rw [teardown_lostOf, if_pos rfl]
  · rw [teardown_tb]
    dsimp only
    split
    · exact nofun
    · assumption

/-- The station has left the capture unit (R131). -/
theorem teardown_leftCapture (s : State) (n : StationNo) (lapsed : Bool) : s.leftCapture n (s.teardown n lapsed) :=
  ⟨fun c => teardown_input s n lapsed c, teardown_journal s n lapsed, teardown_lostOf s n lapsed⟩

/-- Its orders and claims have gone, and the grant scan has run on what that left (R81, R51, R30). -/
theorem teardown_gaveUp {s : State} {n : StationNo} (h : s.ownIds n) (lapsed : Bool) :
    s.gaveUp n (s.teardown n lapsed) := by
  have hu : s.stripped n lapsed = { s.without (fun o => o.station == n) with
      held := s.held.filter (fun c => c.station != n)
      waiting := s.waiting.filter (fun w => w.claim.station != n)
      lines := (s.stripped n lapsed).lines, pairs := (s.stripped n lapsed).pairs
      stations := (s.teardown n lapsed).stations } := by
    rw [teardown_stations, ← heldWithout_of_ownIds h]
    exact stripped_eq s n lapsed
  have hf := grantScan_frame (s.stripped n lapsed)
  have hp := (grants_grantScan (s.stripped n lapsed)).pairs
  refine ⟨s.stripped n lapsed, hu, stripped_line s n lapsed, stripped_pair s n lapsed, ?_⟩
  rw [teardown_eq]
  exact ⟨rfl, rfl, rfl, hp, hf.slots, hf.schedule, hf.armed, fun _ _ => rfl⟩

/-- A teardown, the station's own records apart (R145, R11). -/
theorem teardown_tornDown (s : State) (n : StationNo) (lapsed : Bool) : s.tornDown n (s.teardown n lapsed) := by
  have hs := steady_teardown s n lapsed
  refine ⟨?_, teardown_emptyHanded s n lapsed, teardown_leftCapture s n lapsed, fun m hm => ?_,
    fun l => ⟨hs.polarity l, hs.safe l⟩, fun h => teardown_gaveUp h lapsed⟩
  · have hf := grantScan_frame (s.stripped n lapsed)
    rw [OnlyClaims] at hf
    rw [teardown_eq, hf, stripped_eq]
    rfl
  · rw [teardown_station, if_neg hm]

end Sys2Proof.Machine
end

section
/-! The sessions' requests: what BIND and KEEPALIVE answer (R137, R138, R140), and the teardown by UNBIND (R141). -/

namespace Sys2Proof.Machine

/-! ### BIND and KEEPALIVE -/

section Bind

variable {p : StationNo} {s : State} {f : RequestFrame} (h : s.ready p f) (hcode : f.request = some .bind)
  (hlen : f.payload.length = 3) (hs : (s.station p).session ≠ .bound)
include h hcode hlen hs

/-- A BIND of a station without a session, by what its owner answers (R135, R137): no lease is there to restart. -/
theorem exec_bind {u : State} {outcome : ReplyCode} {payload : List Byte}
    (ho : bindOwner p f (s.dequeue p) = { state := u, outcome := outcome, payload := payload }) :
    exec (.bind p) s = .next (u.replied p f outcome payload) := by
  have hb : (s.dequeue p).isBound p = false := by simpa [State.isBound, State.dequeue] using hs
  have hlease : (s.dequeue p).restartIfCurrent p f.session = s.dequeue p := by
    simp [State.restartIfCurrent, hb]
  have hchecks : (s.dequeue p).commonRefusal p f = none := by
    simp [State.commonRefusal, hcode, hlen, RequestCode.payloadLength, State.sessionRefusal, hb]
  have htake : s.take p (rowOf .bind) bindOwner = u.replied p f outcome payload := by
    rw [take_ready h (rowOf_of_request hcode), State.execute]
    dsimp only
    rw [hlease, hchecks, ho]
    exact answer_eq u p f outcome payload
  exact congrArg _ htake

theorem exec_bind_badValue (hbad : f.session ≠ 0 ∨ 128 < (f.at 0).toNat ∨ f.half 1 = 0) :
    exec (.bind p) s = .next (s.answered p f .badValue []) := by
  have ho : bindOwner p f (s.dequeue p) = refuse (s.dequeue p) .badValue := by
    unfold bindOwner
    split
    · rfl
    · rename_i hzero
      rw [if_pos (hbad.resolve_left hzero)]
  rw [exec_bind h hcode hlen hs ho, replied_eq_answered (s := s) (u := s.dequeue p) f .badValue [] rfl]

theorem exec_bind_ok (hzero : f.session = 0) (hquota : (f.at 0).toNat ≤ 128) (hlease : f.half 1 ≠ 0) :
    exec (.bind p) s = .next
      (((s.setStation p
          { session := .bound, number := some (stepForward (s.station p).counter)
            counter := stepForward (s.station p).counter, leasePeriod := some (f.half 1)
            leaseTimer := some (f.half 1), quota := s.quotaGrant (f.at 0) }).setPort p
          { s.port p with noticeSeq := 0 }).answered p f .ok
        ([stepForward (s.station p).counter, s.quotaGrant (f.at 0)] ++ bytes16 (f.half 1) ++
          [128, 64, 16, 8, s.tb.state.byte])) := by
  have ho : bindOwner p f (s.dequeue p) =
      { state := (s.dequeue p).bindStation p (s.quotaGrant (f.at 0)) (f.half 1)
        outcome := .ok
        payload := [stepForward (s.station p).counter, s.quotaGrant (f.at 0)] ++ bytes16 (f.half 1) ++
          [128, 64, 16, 8, s.tb.state.byte] } := by
    unfold bindOwner
    rw [if_neg (not_not.mpr hzero), if_neg (by rintro (e | e); exacts [by omega, hlease e])]
    rfl
  rw [exec_bind h hcode hlen hs ho]
  simp [State.bindStation, State.dequeue, State.replied, State.answered, PortRec.answered, PortRec.replied,
    setStation_setPort]

end Bind

/-- Settles O4: the checks of R137, and the session that R138 opens. -/
theorem bindOpensSession : Obligations.BindOpensSession :=
  ⟨fun _ _ _ h hcode hlen hs hzero hquota hlease => exec_bind_ok h hcode hlen hs hzero hquota hlease,
    fun _ _ _ h hcode hlen hs hbad => exec_bind_badValue h hcode hlen hs hbad⟩

/-- Settles O5: the request is admitted, and its owner changes nothing. -/
theorem keepaliveRestartsLease : Obligations.KeepaliveRestartsLease := by
  intro p s f lease h hlease
  have ⟨_, hcode, _, _, hnumber⟩ := h
  have hbyte : ((s.dequeue p).leased p).sessionByte p = f.session := by
    rw [leased_sessionByte]
    exact congrArg (fun x : Option Byte => x.getD 0) hnumber
  have hperiod : (((s.dequeue p).leased p).station p).leasePeriod = some lease := by
    rw [State.leased, State.setStation_station_self]
    exact hlease
  have ho : keepaliveOwner p f ((s.dequeue p).leased p) =
      { state := (s.dequeue p).leased p, outcome := .ok, payload := f.session :: bytes16 lease } := by
    unfold keepaliveOwner
    rw [hbyte, hperiod]
    rfl
  exact congrArg _ (take_admitted_unchanged h (by decide) (rowOf_of_request hcode) ho)

/-! ### A teardown, seen from the state before its request -/

/-- A notice for another station, or for one that is not BOUND, leaves the port of `p` out. -/
theorem appendNotice_setPort {s : State} {p : StationNo} (hp : s.isBound p = false) (r : PortRec) (n : StationNo)
    (x : Notice) : (s.setPort p r).appendNotice n x = (s.appendNotice n x).setPort p r := by
  cases hb : s.isBound n with
  | false => rw [appendNotice_unbound hb, appendNotice_unbound (s := s.setPort p r) hb]
  | true =>
    have hn : n ≠ p := by rintro rfl; rw [hp] at hb; cases hb
    rw [appendNotice_bound hb, appendNotice_bound (s := s.setPort p r) hb, State.setPort_port_ne _ _ _ hn,
      setPort_comm s _ _ hn]
    rfl

theorem grant_setPort (s : State) (p : StationNo) (r : PortRec) (c : Claim) :
    (s.setPort p r).grant c = (s.grant c).setPort p r := by
  have hl : ((s.setPort p r).grant c).lines = (s.grant c).lines :=
    lines_ext fun x => by rw [grant_line, grant_line]; rfl
  rw [grant_eq, hl, grant_eq s c]
  rfl

theorem grantWalk_setPort {p : StationNo} (r : PortRec) : ∀ (todo kept : List WaitingClaim) {s : State},
    s.isBound p = false → (s.setPort p r).grantWalk kept todo =
      ((s.grantWalk kept todo).1.setPort p r, (s.grantWalk kept todo).2)
  | [], _, _, _ => rfl
  | w :: rest, kept, s, hp => by
    have hg : (s.grant w.claim).isBound p = false := by
      rw [State.isBound, (grant_frame s w.claim).station]; exact hp
    have ht : ((s.grant w.claim).appendNotice w.claim.station
        (.granted w.claim.id w.claim.lines)).isBound p = false := by
      rw [State.isBound, (appendNotice_frame _ _ _).station]; exact hg
    unfold State.grantWalk
    rw [grant_setPort, appendNotice_setPort hg, grantWalk_setPort r rest kept ht,
      grantWalk_setPort r rest (kept ++ [w]) hp]
    show (if (s.allFree w.claim.lines && !namesAny kept w.claim.lines) = true then _ else _) = _
    split <;> rfl

/-- The grant scan reads the port of no station that is not BOUND (R44, R159). -/
theorem grantScan_setPort {s : State} {p : StationNo} (hp : s.isBound p = false) (r : PortRec) :
    (s.setPort p r).grantScan = s.grantScan.setPort p r := by
  have key : ∀ (fuel : Nat) (u : State), u.isBound p = false →
      (u.setPort p r).grantScanFrom fuel = (u.grantScanFrom fuel).setPort p r := by
    intro fuel
    induction fuel with
    | zero => intro u _; rfl
    | succ fuel ih =>
      intro u hu
      have hw : ({ (u.grantWalk [] u.waiting).1 with waiting := (u.grantWalk [] u.waiting).2.1 } :
          State).isBound p = false := by
        have := (grantWalk_frame u.waiting [] u).station p
        rw [State.isBound] at hu ⊢
        rw [← hu, ← this]
        rfl
      have := ih _ hw
      simp only [State.grantScanFrom, State.setPort_waiting, grantWalk_setPort r u.waiting [] hu]
      split
      · exact this
      · rfl
  exact key _ s hp

/-- The loss of orders and claims is the same whatever the port of a station that ends unbound. -/
theorem gaveUp_of_setPort {s t : State} {p : StationNo} {r : PortRec} (h : (s.setPort p r).gaveUp p t)
    (ht : t.isBound p = false) : s.gaveUp p t := by
  obtain ⟨u, hu, hline, hpair, hheld, hwaiting, hlines, hpairs, hslots, hschedule, harmed, hport⟩ := h
  have hb : u.isBound p = false := by rw [hu]; exact ht
  have hscan := grantScan_setPort hb (s.port p)
  refine ⟨u.setPort p (s.port p), ?_, hline, hpair, ?_, ?_, ?_, hpairs, hslots, hschedule, harmed, fun n hn => ?_⟩
  · have hports : ((s.setPort p r).setPort p (s.port p)).ports = s.ports := by
      rw [State.setPort_setPort, State.setPort_self_same]
    refine (congrArg (fun x : State => x.setPort p (s.port p)) hu).trans ?_
    show ({ s.without (fun o => o.station == p) with
      held := s.held.filter (fun c => c.station != p)
      waiting := s.waiting.filter (fun w => w.claim.station != p)
      lines := u.lines, pairs := u.pairs, stations := t.stations
      ports := ((s.setPort p r).setPort p (s.port p)).ports } : State) = _
    rw [hports]
    rfl
  · rw [hscan]; exact hheld
  · rw [hscan]; exact hwaiting
  · rw [hscan]; exact hlines
  · rw [hscan, State.setPort_port_ne _ _ _ hn]; exact hport n hn

theorem tornDown_of_setPort {s t : State} {p : StationNo} {r : PortRec} (h : (s.setPort p r).tornDown p t)
    (ht : t.isBound p = false) : s.tornDown p t := by
  obtain ⟨hframe, hempty, hleft, hstation, hline, hgave⟩ := h
  exact ⟨hframe, hempty, hleft, hstation, hline, fun hids => gaveUp_of_setPort (hgave hids) ht⟩

theorem tornDown_of_setStation {s t : State} {p : StationNo} {r : StationRec} (h : (s.setStation p r).tornDown p t) :
    s.tornDown p t := by
  obtain ⟨hframe, hempty, hleft, hstation, hline, hgave⟩ := h
  exact ⟨hframe, hempty, hleft, fun n hn => (hstation n hn).trans (State.setStation_station_ne _ _ _ hn), hline,
    hgave⟩

/-- What is done at the station's own port afterwards. -/
theorem State.tornDown.setPort {s t : State} {p : StationNo} (h : s.tornDown p t) (r : PortRec) :
    s.tornDown p (t.setPort p r) := by
  obtain ⟨hframe, hempty, hleft, hstation, hline, hgave⟩ := h
  refine ⟨congrArg (fun x : State => x.setPort p r) hframe, hempty, hleft, hstation, hline, fun hids => ?_⟩
  obtain ⟨u, hu, hline, hpair, hheld, hwaiting, hlines, hpairs, hslots, hschedule, harmed, hport⟩ := hgave hids
  exact ⟨u, hu, hline, hpair, hheld, hwaiting, hlines, hpairs, hslots, hschedule, harmed,
    fun n hn => (State.setPort_port_ne _ _ _ hn).trans (hport n hn)⟩

/-- A teardown after the taking of a request, and what is then done at the station's port (R155, R161). -/
theorem tornDown_taken (s : State) (p : StationNo) (lapsed : Bool) (r : PortRec) :
    s.tornDown p ((((s.dequeue p).leased p).teardown p lapsed).setPort p r) := by
  refine State.tornDown.setPort ?_ r
  exact tornDown_of_setPort (tornDown_of_setStation (teardown_tornDown ((s.dequeue p).leased p) p lapsed))
    (not_bound_teardown _ p lapsed)

/-! ### UNBIND -/

/-- The reply to an UNBIND: the orders removed, the held claims revoked and the waiting claims removed (R141). -/
def State.unbindCounts (s : State) (p : StationNo) : List Byte :=
  [BitVec.ofNat 8 (s.orderCount p), BitVec.ofNat 8 (s.held.filter (fun c => c.station == p)).length,
    BitVec.ofNat 8 (s.waiting.filter (fun w => w.claim.station == p)).length]

theorem portTeardown_replied (s : State) (p : StationNo) (f : RequestFrame) (outcome : ReplyCode)
    (payload : List Byte) (keep : Bool) : (s.answer p f outcome payload).portTeardown p keep =
      s.setPort p (((s.port p).replied f outcome payload).teardown keep) := by
  rw [answer_eq, State.replied, State.portTeardown, State.setPort_port_self, State.setPort_setPort]

/-- UNBIND: the teardown, the reply, and then the port's part of the teardown, which keeps the reply (R141, R161). -/
theorem exec_unbind {p : StationNo} {s : State} {f : RequestFrame} (h : s.admits p f .unbind) :
    exec (.unbind p) s = .next ((((s.dequeue p).leased p).teardown p false).setPort p
      ((((s.dequeue p).port p).replied f .ok (s.unbindCounts p)).teardown true)) := by
  have hport : (((s.dequeue p).leased p).teardown p false).port p = (s.dequeue p).port p :=
    teardown_port_self _ p false
  have ⟨_, hcode, _, _, _⟩ := h
  have htake := take_admitted (owner := unbindOwner) h (by decide) (rowOf_of_request hcode)
  rw [← hport, ← portTeardown_replied]
  exact congrArg _ htake

/-- Settles O7: the owner tears the station down, and its port keeps the reply alone. -/
theorem unbindTearsDown : Obligations.UnbindTearsDown := by
  intro p s f h
  refine ⟨_, exec_unbind h, ?_, tornDown_taken s p false _, ?_⟩
  · rw [State.setPort_station, teardown_station, if_pos rfl, State.leased, State.setStation_station_self]
    rfl
  · rw [State.setPort_port_self, State.dequeue, State.setPort_port_self]
    exact ⟨⟨rfl, rfl, rfl, rfl, rfl⟩, rfl, rfl⟩

end Sys2Proof.Machine
end

section
/-! A lease boundary and the request that meets it (R143, R155): the owner of a request touches no session, BIND and
UNBIND apart, and makes no request due. -/

namespace Sys2Proof.Machine

/-! ### What owners leave of the sessions and the ports -/

/-- The sessions stand, and no request has become due that was not. -/
structure Undisturbed (s t : State) : Prop where
  stations : t.stations = s.stations
  settled : ∀ n, (s.port n).settled → (t.port n).settled

theorem Undisturbed.refl (s : State) : Undisturbed s s := ⟨rfl, fun _ h => h⟩

theorem Undisturbed.trans {s t u : State} (a : Undisturbed s t) (b : Undisturbed t u) : Undisturbed s u :=
  ⟨b.stations.trans a.stations, fun n h => b.settled n (a.settled n h)⟩

theorem Calm.undisturbed {s t : State} (a : Calm s t) : Undisturbed s t := ⟨a.stations, a.settled⟩

/-- Work that touches no station record and no port. -/
theorem Undisturbed.of_same {s t : State} (hs : t.stations = s.stations) (hp : t.ports = s.ports) :
    Undisturbed s t :=
  ⟨hs, fun n h => by rwa [State.port, hp]⟩

theorem Undisturbed.station {s t : State} (a : Undisturbed s t) (n : StationNo) : t.station n = s.station n := by
  rw [State.station, a.stations]
  rfl

theorem undisturbed_setTb (s : State) (b : Timebase) : Undisturbed s { s with tb := b } := .of_same rfl rfl

theorem undisturbed_setPort (s : State) (n : StationNo) {r : PortRec} (h : (s.port n).settled → r.settled) :
    Undisturbed s (s.setPort n r) where
  stations := rfl
  settled m hm := by
    rw [State.setPort_port]
    split
    · rename_i e; exact h (e ▸ hm)
    · exact hm

/-- A reply waits in the slot only while the transmitter sends (R157, R158). -/
theorem undisturbed_replied (s : State) (p : StationNo) (f : RequestFrame) (c : ReplyCode) (payload : List Byte) :
    Undisturbed s (s.replied p f c payload) := by
  refine undisturbed_setPort s p fun h => ?_
  rcases h with h | ⟨-, h⟩
  · exact .inl h
  · right
    simp [PortRec.replied, h]

theorem undisturbed_portTeardown (s : State) (p : StationNo) (keep : Bool) :
    Undisturbed s (s.portTeardown p keep) := undisturbed_setPort s p fun _ => .inl rfl

section Owners

variable (p : StationNo) (f : RequestFrame) (s : State)

theorem undisturbed_portStatusOwner : Undisturbed s (portStatusOwner p f s).state := by
  unfold portStatusOwner
  split
  · dsimp only
    split
    · exact undisturbed_setPort s p fun h => h
    · exact .refl s
  · exact .refl s

theorem undisturbed_timeStartImmediateOwner : Undisturbed s (timeStartImmediateOwner p f s).state := by
  unfold timeStartImmediateOwner
  split
  · exact .refl s
  · exact (undisturbed_setTb s _).trans (calm_appendNotices _ _ _).undisturbed

theorem undisturbed_timeStartOnMarkOwner : Undisturbed s (timeStartOnMarkOwner p f s).state := by
  unfold timeStartOnMarkOwner
  split
  · exact .refl s
  · exact undisturbed_setTb s _

theorem undisturbed_timeStopOwner : Undisturbed s (timeStopOwner p f s).state := by
  unfold timeStopOwner State.halt
  split
  · exact .refl s
  · dsimp only
    split
    all_goals exact .of_same rfl rfl

theorem undisturbed_claimOwner : Undisturbed s (claimOwner p f s).state := by
  unfold claimOwner
  split
  · exact .refl s
  · split
    · exact Undisturbed.trans (t := { s with claimCounter := s.nextClaimId }) (.of_same rfl rfl)
        (calm_grant _ _).undisturbed
    · split
      · exact .refl s
      · split
        · exact .refl s
        · exact .of_same rfl rfl

theorem undisturbed_shapeOwner : Undisturbed s (shapeOwner p f s).state := by
  unfold shapeOwner
  split
  · exact .refl s
  · split
    · exact .refl s
    · split
      · exact .refl s
      · split
        · exact .refl s
        · exact .of_same (shape_frame s _ _).stations (shape_frame s _ _).ports

theorem undisturbed_guardMapOwner : Undisturbed s (guardMapOwner p f s).state := by
  have hmap : ∀ g r, Undisturbed s (s.setGroup g r) := fun _ _ => .of_same rfl rfl
  unfold guardMapOwner
  split
  · exact .refl s
  · unfold State.remap
    dsimp only
    split
    · split
      · exact (hmap _ _).trans ((calm_tripGroup _ _).trans (calm_tripNotices _ _ _)).undisturbed
      · exact hmap _ _
    · exact hmap _ _

theorem undisturbed_rearmOwner : Undisturbed s (rearmOwner p f s).state := by
  unfold rearmOwner
  split
  · exact .refl s
  · split
    · exact .refl s
    · split
      · exact .refl s
      · split
        · exact .refl s
        · exact Undisturbed.trans (t := s.setGroup _ _) (.of_same rfl rfl) (calm_appendNotices _ _ _).undisturbed

theorem undisturbed_postOwner : Undisturbed s (postOwner p f s).state := by
  unfold postOwner
  split
  · exact .refl s
  · unfold postArmed
    split
    · exact .refl s
    · split
      · exact .refl s
      · exact .of_same rfl rfl
  · split
    · unfold postFuture
      split
      · exact .refl s
      · exact .of_same rfl rfl
    · exact .refl s
    · exact .refl s
    · unfold postLateFire
      split
      · exact .refl s
      · exact Undisturbed.trans (t := s.fireDue.nextPost.setOrder _ _)
          ((calm_fireDue s).undisturbed.trans (.of_same rfl rfl))
          (calm_fireEdge (order_setOrder _ _ _) _ rfl).undisturbed

/-- No owner but those of BIND and UNBIND touches a session. -/
theorem undisturbed_rowOwner {c : Instr} (hb : ∀ n, c ≠ .bind n) (hu : ∀ n, c ≠ .unbind n) :
    Undisturbed s (rowOwner c p f s).state := by
  cases c with
  | bind n => exact absurd rfl (hb n)
  | unbind n => exact absurd rfl (hu n)
  | portStatus => exact undisturbed_portStatusOwner p f s
  | timeStartImmediate => exact undisturbed_timeStartImmediateOwner p f s
  | timeStartOnMark => exact undisturbed_timeStartOnMarkOwner p f s
  | timeStop => exact undisturbed_timeStopOwner p f s
  | claim => exact undisturbed_claimOwner p f s
  | release => exact (calm_releaseOwner p f s).undisturbed
  | shape => exact undisturbed_shapeOwner p f s
  | lineRead => exact (calm_lineReadOwner p f s).undisturbed
  | pairBind => exact (calm_pairBindOwner p f s).undisturbed
  | pairUnbind => exact (calm_pairUnbindOwner p f s).undisturbed
  | post => exact undisturbed_postOwner p f s
  | cancelNow => exact (calm_cancelNowOwner p f s).undisturbed
  | cancelAtEnd => exact (calm_cancelAtEndOwner p f s).undisturbed
  | revise => exact (calm_reviseOwner p f s).undisturbed
  | flush => exact (calm_flushOwner p f s).undisturbed
  | orderRead => exact (calm_orderReadOwner p f s).undisturbed
  | guardMap => exact undisturbed_guardMapOwner p f s
  | rearm => exact undisturbed_rearmOwner p f s
  | subscribe => exact (calm_subscribeOwner p f s).undisturbed
  | unsubscribe => exact (calm_unsubscribeOwner p f s).undisturbed
  | readCaptures => exact (calm_readCapturesOwner p f s).undisturbed
  | _ => exact .refl s

end Owners

/-! ### The request that meets a boundary -/

/-- The request is an UNBIND of the length of its code. -/
def RequestFrame.unbinds (f : RequestFrame) : Prop := f.request = some .unbind ∧ f.payload = []

/-- An UNBIND taken in its station's session passes the common checks (R135, R168). -/
theorem commonRefusal_unbind {s : State} {p : StationNo} {f : RequestFrame} (h : f.unbinds)
    (hs : (s.station p).session = .bound) (hn : (s.station p).number = some f.session) :
    s.commonRefusal p f = none := by
  obtain ⟨hcode, hpayload⟩ := h
  simp [State.commonRefusal, hcode, hpayload, RequestCode.payloadLength, State.sessionRefusal, hs, hn]

/-- Of a BOUND station only an UNBIND that passes the common checks gets to an owner that ends or opens a session. -/
theorem undisturbed_requestOwner {s : State} {p : StationNo} {f : RequestFrame} (hb : s.isBound p = true)
    (hpass : s.commonRefusal p f = none) (hf : ¬f.unbinds) : Undisturbed s (requestOwner p f s).state := by
  obtain ⟨c, row, hc, hrow, ho⟩ := requestOwner_eq_rowOwner p f
  rw [ho]
  refine undisturbed_rowOwner p f s (fun n e => ?_) fun n e => hf ?_
  · subst e
    cases hc
    rw [not_bound_of_bind hrow hpass] at hb
    cases hb
  · subst e
    cases hc
    have hcode : f.request = some .unbind := by simpa [rowOf] using hrow
    simp only [State.commonRefusal, hcode] at hpass
    split at hpass
    · rename_i hlen
      exact ⟨hcode, List.length_eq_zero_iff.mp hlen⟩
    · cases hpass

section InSession

variable {s : State} {p : StationNo} {f : RequestFrame} (hs : (s.station p).session = .bound)
  (hn : (s.station p).number = some f.session)
include hs hn

/-- A request of a BOUND station with its session number restarts the lease (R136). -/
theorem restartIfCurrent_in_session : s.restartIfCurrent p f.session = s.leased p := by
  simp [State.restartIfCurrent, State.isBound, hs, hn]

/-- An UNBIND executed: the teardown, the reply, and the port's part of the teardown (R141, R155, R161). -/
theorem execute_unbind (hf : f.unbinds) : s.execute p f requestOwner =
    (((s.leased p).teardown p false).replied p f .ok (unbindOwner p f (s.leased p)).payload).portTeardown p true := by
  have hself : (s.leased p).station p = { s.station p with leaseTimer := (s.station p).leasePeriod } :=
    State.setStation_station_self _ _ _
  have hpass : (s.leased p).commonRefusal p f = none :=
    commonRefusal_unbind hf (by rw [hself]; exact hs) (by rw [hself]; exact hn)
  have howner : requestOwner p f = unbindOwner p f := by
    unfold requestOwner
    rw [hf.1]
  unfold State.execute
  dsimp only
  rw [restartIfCurrent_in_session hs hn, hpass, howner, ← answer_eq]
  rfl

/-- Any other request executed leaves the session as the restart of the lease left it. -/
theorem undisturbed_execute (hf : ¬f.unbinds) : Undisturbed (s.leased p) (s.execute p f requestOwner) := by
  have hb : (s.leased p).isBound p = true := by
    rw [leased_isBound]
    exact (isBound_iff s p).mpr hs
  unfold State.execute
  dsimp only
  rw [restartIfCurrent_in_session hs hn]
  split
  · rw [answer_eq]
    exact undisturbed_replied _ p f _ _
  · rename_i hpass
    have howner := undisturbed_requestOwner hb hpass hf
    rw [answer_eq]
    split
    · exact (howner.trans (undisturbed_replied _ p f _ _)).trans (undisturbed_portTeardown _ p true)
    · exact howner.trans (undisturbed_replied _ p f _ _)

/-- A request of a BOUND station in its session, executed: nothing is due that was not, and the session stands with its
lease restarted, but for an UNBIND, which ends it. -/
theorem execute_in_session :
    (∀ n, (s.port n).settled → ((s.execute p f requestOwner).port n).settled) ∧
      (¬f.unbinds → (s.execute p f requestOwner).station p =
        { s.station p with leaseTimer := (s.station p).leasePeriod }) ∧
      (f.unbinds → ((s.execute p f requestOwner).station p).session = .unbound) := by
  by_cases hf : f.unbinds
  · have hrest := (undisturbed_replied ((s.leased p).teardown p false) p f .ok
      (unbindOwner p f (s.leased p)).payload).trans (undisturbed_portTeardown _ p true)
    rw [← execute_unbind hs hn hf] at hrest
    refine ⟨fun n h => hrest.settled n ((draining_teardown (s.leased p) p false).settled n h),
      fun h => absurd hf h, fun _ => ?_⟩
    rw [hrest.station, teardown_station, if_pos rfl]
    rfl
  · have hrest := undisturbed_execute hs hn hf
    exact ⟨hrest.settled, fun _ => (hrest.station p).trans (State.setStation_station_self _ _ _),
      fun h => absurd h hf⟩

end InSession

/-- The one request that meets a lease boundary is served once, at its port (R143, R155). -/
theorem serveDue_of_one {s : State} {n : StationNo} (hother : ∀ m, m ≠ n → (s.port m).settled)
    (hserved : (s.serveHead n).settled) : s.serveDue = s.serveHead n := by
  have hdone : ∀ m, ((s.serveHead n).serveHead m).serveHead m = s.serveHead n := fun m => by
    rw [serveHead_of_settled (hserved m), serveHead_of_settled (hserved m)]
  have key : ∀ l : List StationNo, n ∈ l →
      l.foldl (fun s p => (s.serveHead p).serveHead p) s = s.serveHead n := by
    intro l
    induction l with
    | nil => exact nofun
    | cons m l ih =>
      intro hn
      rw [List.foldl_cons]
      by_cases e : m = n
      · subst e
        rw [serveHead_of_settled (hserved m)]
        exact List.foldl_fixed' hdone l
      · rw [serveHead_of_settled (hother m e), serveHead_of_settled (hother m e)]
        exact ih ((List.mem_cons.mp hn).resolve_left (Ne.symm e))
  exact key _ (List.mem_finRange n)

/-- A request that is ready when the boundary comes is executed (R143): the boundary leaves what a replay reads. -/
theorem serveHead_leaseUnitEnds {s : State} {n : StationNo} {f : RequestFrame} (h : s.ready n f) :
    s.leaseUnitEnds.serveHead n = (s.leaseUnitEnds.dequeue n).execute n f requestOwner := by
  have htake : s.leaseUnitEnds.takeable n = some f := ready_takeable (s := s) h
  have hreplay : s.leaseUnitEnds.replayOf n f = none := ready_not_replayed (s := s) h
  rw [State.serveHead, State.serve, htake]
  dsimp only
  rw [if_pos rfl, hreplay]

/-- A lease boundary that a request of a BOUND station meets, in the station's session (R143). -/
theorem meetBoundary_in_session {s : State} {n : StationNo} {f : RequestFrame} (h : s.ready n f)
    (hone : (s.port n).requests = [f]) (hother : ∀ m, m ≠ n → (s.port m).settled) (hu : s.unowed)
    (hs : (s.station n).session = .bound) (hn : (s.station n).number = some f.session) :
    s.meetBoundary.settled ∧
      (¬f.unbinds → s.meetBoundary.station n = { s.station n with leaseTimer := (s.station n).leasePeriod }) ∧
      (f.unbinds → (s.meetBoundary.station n).session = .unbound) := by
  have hdequeued : (s.leaseUnitEnds.dequeue n).settled := by
    intro m
    rw [State.dequeue, State.setPort_port]
    split
    · left
      show (s.port n).requests.tail = []
      rw [hone]
      rfl
    · exact hother m (by assumption)
  have hrec : (s.leaseUnitEnds.dequeue n).station n =
      { s.station n with leaseTimer := (s.station n).leaseTimer.map countDown } := leaseUnitEnds_station s n
  obtain ⟨hsettled, hstands, hends⟩ := execute_in_session (s := s.leaseUnitEnds.dequeue n) (p := n) (f := f)
    (by rw [hrec]; exact hs) (by rw [hrec]; exact hn)
  rw [← serveHead_leaseUnitEnds h] at hsettled hstands hends
  have hserved : s.leaseUnitEnds.serveDue = s.leaseUnitEnds.serveHead n :=
    serveDue_of_one hother fun m => hsettled m (hdequeued m)
  rw [meetBoundary_of_unowed hu, hserved]
  refine ⟨fun m => hsettled m (hdequeued m), fun hf => ?_, hends⟩
  refine (hstands hf).trans ?_
  rw [hrec]

/-! ### The expiry of a lease -/

theorem exec_leaseExpiry {n : StationNo} {s : State} (hr : s.inReset = false) :
    exec (.leaseExpiry n) s = .next (s.lapse n) := by
  show working s _ = _
  simp [working, hr]

theorem exec_leaseExpiry_not_owed {n : StationNo} {s : State} (h : s.leaseOwed n = false) :
    exec (.leaseExpiry n) s = .next s := by
  show working s _ = _
  simp [working, lapse_of_not_owed h]

theorem leaseOwed_of {s : State} {n : StationNo} (hs : (s.station n).session = .bound)
    (ht : (s.station n).leaseTimer = some 0) : s.leaseOwed n = true := by
  simp [State.leaseOwed, State.isBound, hs, ht]

theorem lapse_of_owed {s : State} {n : StationNo} (h : s.leaseOwed n = true) :
    s.lapse n = (s.teardown n true).setPort n ((s.port n).teardown false) := by
  rw [State.lapse, if_pos h, State.portTeardown, teardown_port_self]

/-- Settles O8: the lapse of a station, the boundary that serves its request first, and the request that finds the
expiry. -/
theorem leaseExpiryTearsDown : Obligations.LeaseExpiryTearsDown := by
  refine ⟨fun n s hr hs ht => ?_, fun n s f period h hone hother hu hs hn hperiod hzero => ?_,
    fun c n row s f hc hr hslot hhead hrow hs ht => ?_⟩
  · refine ⟨s.lapse n, exec_leaseExpiry hr, ?_⟩
    rw [lapse_of_owed (leaseOwed_of hs ht), State.setPort_port_self, State.setPort_station, teardown_station,
      if_pos rfl]
    exact ⟨rfl, (teardown_tornDown s n true).setPort _, ⟨rfl, rfl, rfl, rfl, rfl⟩, rfl, rfl, rfl, rfl, rfl, rfl⟩
  · obtain ⟨hsettled, hstands, hends⟩ := meetBoundary_in_session h hone hother hu hs hn
    have howed : s.meetBoundary.leaseOwed n = false := by
      by_cases hf : f.unbinds
      · simp [State.leaseOwed, State.isBound, hends hf]
      · simpa [State.leaseOwed, hstands hf, hperiod] using fun _ => hzero
    rw [hperiod] at hstands
    exact ⟨_, exec_leaseBoundary h.1, exec_leaseExpiry_not_owed howed, hsettled, hstands,
      fun hc hp => hends ⟨hc, hp⟩⟩
  · have htake : s.takeable n = some f := by simp [State.takeable, hr, hslot, hhead]
    rw [exec_requestRow hc, exec_leaseExpiry hr, take_owed htake hrow (leaseOwed_of hs ht)]

end Sys2Proof.Machine
end

section
/-! PORT_STATUS: what it answers in every session state, and the counters that it clears (R162). -/

namespace Sys2Proof.Machine

/-- The state after the taking's restart of the lease: of a BOUND station whose number the frame carries (R136). -/
def State.leasedIfCurrent (s : State) (p : StationNo) (f : RequestFrame) : State :=
  if s.isBound p = true ∧ (s.station p).number = some f.session then s.leased p else s

theorem restartIfCurrent_dequeue (s : State) (p : StationNo) (f : RequestFrame) :
    (s.dequeue p).restartIfCurrent p f.session = (s.leasedIfCurrent p f).dequeue p := by
  have hcond : (s.isBound p && (s.station p).number == some f.session) = true ↔
      s.isBound p = true ∧ (s.station p).number = some f.session := by simp
  unfold State.leasedIfCurrent
  split
  · rename_i h
    exact if_pos (hcond.mpr h)
  · rename_i h
    exact if_neg (mt hcond.mp h)

@[simp] theorem leasedIfCurrent_port (s : State) (p : StationNo) (f : RequestFrame) (n : StationNo) :
    (s.leasedIfCurrent p f).port n = s.port n := by
  unfold State.leasedIfCurrent
  split <;> rfl

@[simp] theorem leasedIfCurrent_session (s : State) (p : StationNo) (f : RequestFrame) :
    ((s.leasedIfCurrent p f).station p).session = (s.station p).session := by
  unfold State.leasedIfCurrent
  split
  · rw [State.leased, State.setStation_station_self]
  · rfl

section PortStatus

variable {p : StationNo} {s : State} {f : RequestFrame} (h : s.ready p f) (hcode : f.request = some .portStatus)
  (hlen : f.payload.length = 1)
include h hcode hlen

/-- A PORT_STATUS by what its owner answers: no session check stands before it (R135). -/
theorem exec_portStatus {u : State} {outcome : ReplyCode} {payload : List Byte}
    (ho : portStatusOwner p f ((s.leasedIfCurrent p f).dequeue p) =
      { state := u.dequeue p, outcome := outcome, payload := payload }) :
    exec (.portStatus p) s = .next (u.answered p f outcome payload) := by
  have hchecks : ((s.leasedIfCurrent p f).dequeue p).commonRefusal p f = none := by
    simp [State.commonRefusal, hcode, hlen, RequestCode.payloadLength, State.sessionRefusal]
  have htake : s.take p (rowOf .portStatus) portStatusOwner = u.answered p f outcome payload := by
    rw [take_ready h (rowOf_of_request hcode), State.execute]
    dsimp only
    rw [restartIfCurrent_dequeue, hchecks, ho]
    exact dequeue_answer u p f outcome payload
  exact congrArg _ htake

end PortStatus

/-- Settles O6: the owner reads the counters and the session, which the restart of the lease leaves. -/
theorem portStatusReports : Obligations.PortStatusReports := by
  intro p s f h hcode hlen
  have hdiscards : (((s.leasedIfCurrent p f).dequeue p).port p).discards = (s.port p).discards := by
    rw [State.dequeue, State.setPort_port_self, leasedIfCurrent_port]
  have hsession : (((s.leasedIfCurrent p f).dequeue p).station p).session = (s.station p).session :=
    leasedIfCurrent_session s p f
  refine ⟨fun h0 => exec_portStatus h hcode hlen ?_, fun h1 => exec_portStatus h hcode hlen ?_,
    fun h0 h1 => exec_portStatus h hcode hlen ?_⟩
  · unfold portStatusOwner
    rw [if_pos (.inl h0), if_neg (by rw [h0]; decide), hdiscards, hsession]
    rfl
  · unfold portStatusOwner
    rw [if_pos (.inr h1), if_pos h1, hdiscards, hsession]
    simp only [State.dequeue, State.setPort_port_self, State.setPort_setPort, leasedIfCurrent_port]
    rfl
  · unfold portStatusOwner
    rw [if_neg (not_or.mpr ⟨h0, h1⟩)]
    rfl

end Sys2Proof.Machine
end

section
/-! The receiver (R148 to R151, R154): what each character command does to its port's record, and which characters
complete a frame or end it early. -/

namespace Sys2Proof.Machine

/-! ### The receiver's commands at work -/

section Commands

variable {p : StationNo} {s : State} (hw : s.atWork) (data : Byte) (marker stop : Bool)
include hw

/-- A character of a frame in assembly, or one in HUNT (R148). -/
theorem exec_characterReceived (hc : (s.port p).completes marker stop = false)
    (he : (s.port p).endsEarly data marker stop = false) :
    exec (.characterReceived p data marker stop) s =
      .next (s.setPort p ((s.port p).character data marker stop)) := by
  simp only [exec, execCharacterReceived, acting_atWork hw, hc, he, Bool.or_self, Bool.false_eq_true, if_false]

theorem exec_frameEndEarly (he : (s.port p).endsEarly data marker stop = true) :
    exec (.frameEndEarly p data marker stop) s =
      .next (s.setPort p ((s.port p).endEarly data marker stop)) := by
  simp only [exec, execFrameEndEarly, acting_atWork hw, he, if_true]

/-- A character that ends no frame is no event of this row (assumption 1). -/
theorem exec_frameEndEarly_none (he : (s.port p).endsEarly data marker stop = false) :
    exec (.frameEndEarly p data marker stop) s = .next s := by
  simp only [exec, execFrameEndEarly, acting_atWork hw, he, Bool.false_eq_true, if_false]

theorem exec_frameComplete (hc : (s.port p).completes false true = true) :
    exec (.frameComplete p data) s = .next (s.setPort p ((s.port p).decideFrame data)) := by
  simp only [exec, execFrameComplete, acting_atWork hw, hc, if_true]

theorem exec_frameComplete_none (hc : (s.port p).completes false true = false) :
    exec (.frameComplete p data) s = .next s := by
  simp only [exec, execFrameComplete, acting_atWork hw, hc, Bool.false_eq_true, if_false]

end Commands

/-! ### Which characters complete a frame, and which end it -/

/-- Only the last check byte completes a frame (R148). -/
theorem completes_iff (r : PortRec) : r.completes false true = true ↔
    r.receiver = .check ∧ r.buffer.length + 1 = r.frameLength + 6 := by
  simp [PortRec.completes]

theorem completes_of_ne_check {r : PortRec} (h : r.receiver ≠ .check) (marker stop : Bool) :
    r.completes marker stop = false := by
  simp [PortRec.completes, h]

/-- Outside a frame nothing ends early. -/
theorem endsEarly_of_not_assembling {r : PortRec} (h : r.receiver.assembling = false) (data : Byte)
    (marker stop : Bool) : r.endsEarly data marker stop = false := by
  simp [PortRec.endsEarly, h]

/-- A good character with marker 0 ends a frame early only as a length byte above 48 (R148). -/
theorem endsEarly_good_iff (r : PortRec) (data : Byte) : r.endsEarly data false true = true ↔
    r.receiver = .header ∧ r.buffer.length = 3 ∧ 48 < data.toNat := by
  have hassembling : (r.receiver = .header → r.receiver.assembling = true) := fun h => by rw [h]; rfl
  simp only [PortRec.endsEarly, PortRec.takesLength, Config.maxPayload, Bool.not_true, Bool.false_or,
    Bool.and_eq_true, beq_iff_eq]
  exact ⟨fun ⟨_, ⟨hr, hl⟩, hd⟩ => ⟨hr, hl, of_decide_eq_true hd⟩,
    fun ⟨hr, hl, hd⟩ => ⟨hassembling hr, ⟨hr, hl⟩, decide_eq_true hd⟩⟩

/-- Stop bit 0 or marker 1 ends a frame in assembly (R148). -/
theorem endsEarly_of_bad {r : PortRec} (h : r.receiver.assembling = true) (data : Byte) {marker stop : Bool}
    (hbad : stop = false ∨ marker = true) : r.endsEarly data marker stop = true := by
  rcases hbad with rfl | rfl <;> simp [PortRec.endsEarly, h]

theorem assembling_iff (x : Receiver) : x.assembling = true ↔ x = .header ∨ x = .body ∨ x = .check := by
  cases x <;> simp [Receiver.assembling]

/-! ### The byte that a good character adds -/

/-- A good character with marker 0 that neither completes nor ends its frame adds its byte (R148). -/
theorem exec_characterReceived_added {p : StationNo} {s : State} (hw : s.atWork) {data : Byte}
    (ha : (s.port p).receiver.assembling = true)
    (hc : ¬((s.port p).receiver = .check ∧ (s.port p).buffer.length + 1 = (s.port p).frameLength + 6))
    (he : ¬((s.port p).receiver = .header ∧ (s.port p).buffer.length = 3 ∧ 48 < data.toNat)) :
    exec (.characterReceived p data false true) s = .next (s.setPort p { s.port p with
      receiver := (s.port p).receiverAfter data, buffer := (s.port p).buffer ++ [data] }) := by
  rw [exec_characterReceived hw data false true (by simpa using mt (completes_iff _).mp hc)
    (by simpa using mt (endsEarly_good_iff _ data).mp he)]
  rcases (assembling_iff _).mp ha with h | h | h <;> simp only [PortRec.character, h]

/-- The third byte after byte 0 is the length byte: without payload the check bytes follow (R148). -/
theorem receiverAfter_header {r : PortRec} (h : r.receiver = .header) (data : Byte) : r.receiverAfter data =
    if r.buffer.length = 3 then (if data = 0 then .check else .body) else .header := by
  rw [PortRec.receiverAfter, h]

theorem receiverAfter_body {r : PortRec} (h : r.receiver = .body) (data : Byte) : r.receiverAfter data =
    if r.buffer.length + 1 = r.frameLength + 4 then .check else .body := by
  rw [PortRec.receiverAfter, h]

theorem receiverAfter_check {r : PortRec} (h : r.receiver = .check) (data : Byte) : r.receiverAfter data = .check := by
  rw [PortRec.receiverAfter, h]

/-! ### The decision on a complete frame (R149) -/

/-- The kind of a frame is the number in the two most significant bits of byte 0 (R165). -/
theorem kind_eq_zero_iff (b : Byte) : b.extractLsb' 6 2 = 0 ↔ b.toNat / 64 = 0 := by
  rw [← BitVec.toNat_inj, BitVec.extractLsb'_toNat, Nat.shiftRight_eq_div_pow]
  have := b.isLt
  show b.toNat / 64 % 4 = 0 ↔ _
  omega

section Decision

variable {r : PortRec} {data : Byte}

/-- The two check bytes of the frame carry its check value (R149, R151). -/
def PortRec.checks (r : PortRec) (data : Byte) : Prop := checkValue r.checkedBytes = r.checkBytes data

theorem decideFrame_check (h : ¬r.checks data) : r.decideFrame data =
    { r.toHunt with discards := { r.discards with check := satInc r.discards.check } } := if_pos h

theorem decideFrame_kind (h : r.checks data) (hk : (r.buffer.getD 0 0).toNat / 64 ≠ 0) : r.decideFrame data =
    { r.toHunt with discards := { r.discards with kind := satInc r.discards.kind } } :=
  (if_neg (not_not.mpr h)).trans (if_pos (mt (kind_eq_zero_iff _).mp hk))

theorem decideFrame_full (h : r.checks data) (hk : (r.buffer.getD 0 0).toNat / 64 = 0)
    (hq : 2 ≤ r.requests.length) : r.decideFrame data =
      { r.toHunt with discards := { r.discards with full := satInc r.discards.full } } :=
  (if_neg (not_not.mpr h)).trans ((if_neg (not_not.mpr ((kind_eq_zero_iff _).mpr hk))).trans (if_pos hq))

theorem decideFrame_queued (h : r.checks data) (hk : (r.buffer.getD 0 0).toNat / 64 = 0)
    (hq : r.requests.length < 2) :
    r.decideFrame data = { r.toHunt with requests := r.requests ++ [r.requestFrame] } :=
  (if_neg (not_not.mpr h)).trans ((if_neg (not_not.mpr ((kind_eq_zero_iff _).mpr hk))).trans
    (if_neg (Nat.not_le.mpr hq)))

end Decision

/-! ### The receiver's states -/

section States

variable {p : StationNo} {s : State} (hw : s.atWork) (data : Byte) (marker stop : Bool)
include hw

/-- In HUNT a good character with marker 1 begins a frame, and any other is ignored (R148). -/
theorem exec_characterReceived_hunt (h : (s.port p).receiver = .hunt) :
    exec (.characterReceived p data marker stop) s =
      .next (if stop && marker then s.setPort p ((s.port p).beginFrame data) else s) := by
  rw [exec_characterReceived hw data marker stop (completes_of_ne_check (by rw [h]; decide) marker stop)
    (endsEarly_of_not_assembling (by rw [h]; rfl) data marker stop)]
  simp only [PortRec.character, h]
  split
  · rfl
  · rw [State.setPort_self_same]

/-- In BREAK no character is accepted (R152). -/
theorem exec_characterReceived_inBreak (h : (s.port p).receiver = .inBreak) :
    exec (.characterReceived p data marker stop) s = .next s := by
  rw [exec_characterReceived hw data marker stop (completes_of_ne_check (by rw [h]; decide) marker stop)
    (endsEarly_of_not_assembling (by rw [h]; rfl) data marker stop)]
  simp only [PortRec.character, h, State.setPort_self_same]

end States

/-- Settles O49, receiver state by receiver state. -/
theorem receiverAssemblesFrames : Obligations.ReceiverAssemblesFrames := by
  intro p data s hw r size up hunting taken
  have hlen : taken.length = r.buffer.length + 1 := List.length_append
  refine ⟨fun hhunt => ?_, fun hbreak marker stop => ?_, fun hheader => ?_, fun hbody => ?_, fun hcheck => ?_,
    fun hframe => ?_⟩
  · have hexec := fun marker stop => exec_characterReceived_hunt (p := p) hw data marker stop hhunt
    exact ⟨hexec true true, hexec false true, hexec true false, hexec false false⟩
  · have hidle : r.receiver.assembling = false := by rw [hbreak]; rfl
    exact ⟨exec_characterReceived_inBreak hw data marker stop hbreak,
      exec_frameEndEarly_none hw data marker stop (endsEarly_of_not_assembling hidle data marker stop),
      exec_frameComplete_none hw data (completes_of_ne_check (by rw [hbreak]; decide) _ _)⟩
  · have ha : r.receiver.assembling = true := by rw [hheader]; rfl
    have hc : ¬(r.receiver = .check ∧ r.buffer.length + 1 = r.frameLength + 6) := by simp [hheader]
    refine ⟨fun hl => ?_, fun hl hd => ?_, fun hl hd => ?_⟩
    · have hshort : r.buffer.length ≠ 3 := by omega
      rw [exec_characterReceived_added hw ha hc fun ⟨_, hb, _⟩ => hshort hb, receiverAfter_header hheader,
        if_neg hshort, ← hheader]
    · have hfull : r.buffer.length = 3 := by omega
      rw [exec_characterReceived_added hw ha hc fun ⟨_, _, hb⟩ => by omega, receiverAfter_header hheader,
        if_pos hfull]
    · have hfull : r.buffer.length = 3 := by omega
      exact exec_frameEndEarly hw data false true ((endsEarly_good_iff r data).mpr ⟨hheader, hfull, hd⟩)
  · have ha : r.receiver.assembling = true := by rw [hbody]; rfl
    rw [exec_characterReceived_added hw ha (fun ⟨h, _⟩ => nomatch hbody.symm.trans h)
      (fun ⟨h, _⟩ => nomatch hbody.symm.trans h), receiverAfter_body hbody, hlen]
    rfl
  · have ha : r.receiver.assembling = true := by rw [hcheck]; rfl
    refine ⟨fun hl => ?_, fun hl => ?_⟩
    · rw [exec_characterReceived_added hw ha (fun ⟨_, h⟩ => hl (hlen.trans h))
        (fun ⟨h, _⟩ => nomatch hcheck.symm.trans h), receiverAfter_check hcheck, ← hcheck]
    · have hexec := exec_frameComplete hw data ((completes_iff r).mpr ⟨hcheck, hlen.symm.trans hl⟩)
      refine ⟨fun hbad => ?_, fun hgood hk => ?_, fun hgood hk hq => ?_, fun hgood hk hq => ?_⟩
      · rw [hexec, decideFrame_check hbad]
        rfl
      · rw [hexec, decideFrame_kind hgood hk]
        rfl
      · rw [hexec, decideFrame_full hgood hk hq]
        rfl
      · rw [hexec, decideFrame_queued hgood hk hq]
        rfl
  · have ha := (assembling_iff r.receiver).mpr hframe
    exact ⟨fun marker => exec_frameEndEarly hw data marker false (endsEarly_of_bad ha data (.inl rfl)),
      exec_frameEndEarly hw data true true (endsEarly_of_bad ha data (.inr rfl))⟩

end Sys2Proof.Machine
end

section
/-! The transmitter (R158, R160): what it chooses when a frame ends, and the bits of the character that it sends
(R147). -/

namespace Sys2Proof.Machine

/-! ### The choice at the end of a frame (R158) -/

/-- The port at the end of a frame: its transmitter is idle, and has not chosen. -/
def PortRec.silent (r : PortRec) : PortRec := { r with transmitter := .idle }

theorem silent_choose_reply {r : PortRec} {x : Reply} (h : r.replySlot = some x) (bound : Bool) (session : Byte) :
    r.silent.choose bound session = { r with replySlot := none, transmitter := .sending x.frame 0 } := by
  simp only [PortRec.choose, PortRec.silent, h]

/-- Without a reply, a BOUND station's oldest notice is begun, and its header filled (R160). -/
theorem silent_choose_notice {r : PortRec} {x : Notice} {rest : List Notice} (h : r.replySlot = none)
    (hx : r.notices = x :: rest) (session : Byte) : r.silent.choose true session = { r with
      notices := rest, noticesLost := 0, noticeSeq := r.noticeSeq + 1
      transmitter := .sending (x.frame r.noticeSeq session r.noticesLost) 0 } := by
  simp only [PortRec.choose, PortRec.silent, h, hx]

/-- With neither it begins nothing. -/
theorem silent_choose_nothing {r : PortRec} {bound : Bool} (h : r.replySlot = none)
    (hx : r.notices = [] ∨ bound = false) (session : Byte) : r.silent.choose bound session = r.silent := by
  simp only [PortRec.choose, PortRec.silent, h]
  rcases hx with hx | rfl
  · simp only [hx]
  · rfl

theorem endTransmission_eq (s : State) (n : StationNo) :
    s.endTransmission n = s.setPort n ((s.port n).silent.choose (s.isBound n) (s.sessionByte n)) := by
  rw [State.endTransmission, State.transmitChoice, State.setPort_port_self, State.setPort_setPort]
  rfl

/-- A transmitter that is idle ends nothing (assumption 1). -/
theorem exec_transmitEnd_idle {p : StationNo} {s : State} (hw : s.atWork) (h : (s.port p).transmitter = .idle) :
    exec (.transmitEnd p) s = .next s := by
  simp only [exec, execTransmitEnd, acting_atWork hw, if_pos h]

theorem exec_transmitEnd {p : StationNo} {s : State} (hw : s.atWork) (h : (s.port p).transmitter ≠ .idle) :
    exec (.transmitEnd p) s = .next (s.setPort p
      ((s.port p).silent.choose (s.isBound p) (s.sessionByte p))) := by
  simp only [exec, execTransmitEnd, acting_atWork hw, if_neg h, endTransmission_eq]

/-! ### Characters on the line (R147) -/

/-- Byte 0 of a notice: kind 2 in the two most significant bits (R165). -/
theorem kindByte_notice : ∀ q : BitVec 6, kindByte 2#2 q = 128#8 ||| q.setWidth 8 := by decide

/-- The characters of a frame: each byte, with marker 1 on the first alone (R147). -/
theorem sentCharacters_get {frame : List Byte} {k : Nat} {x : Byte} (h : frame[k]? = some x) :
    (sentCharacters frame)[k]? = some ⟨x, decide (k = 0), true⟩ := by
  cases frame with
  | nil => simp at h
  | cons y rest =>
    cases k with
    | zero => simpa [sentCharacters] using h
    | succ k => simpa [sentCharacters] using h

/-- The 11 bits of a character, one by one (Table 9-2). -/
theorem bits_eq (x : Byte) (marker stop : Bool) : (⟨x, marker, stop⟩ : Character).bits =
    [false, x.getLsbD 0, x.getLsbD 1, x.getLsbD 2, x.getLsbD 3, x.getLsbD 4, x.getLsbD 5, x.getLsbD 6,
      x.getLsbD 7, marker, stop] := rfl

/-- Settles O50: the transmitter's choice, and the character that it has reached. -/
theorem transmitterChoosesNextFrame : Obligations.TransmitterChoosesNextFrame := by
  intro p s hw r
  refine ⟨exec_transmitEnd_idle hw, fun hsending => ⟨fun x hx => ?_, fun hslot x rest number hx hs hn => ?_,
    fun hslot hnone => ?_⟩, fun hidle => ?_, fun frame k x hsending hx => ?_⟩
  · rw [exec_transmitEnd hw hsending, silent_choose_reply hx]
  · have hbound : s.isBound p = true := (isBound_iff s p).mpr hs
    have hbyte : s.sessionByte p = number := by rw [State.sessionByte, hn]; rfl
    rw [exec_transmitEnd hw hsending, hbound, hbyte, silent_choose_notice hslot hx, Notice.frame, kindByte_notice]
    rfl
  · have hbound : r.notices = [] ∨ s.isBound p = false :=
      hnone.imp_right fun h => by simpa using mt (isBound_iff s p).mp h
    rw [exec_transmitEnd hw hsending, silent_choose_nothing hslot hbound]
    rfl
  · show r.transmitter.character = none
    rw [hidle]
    rfl
  · have hchar : s.sentCharacter p = (sentCharacters frame)[k]? := by
      show r.transmitter.character = _
      rcases hsending with h | h <;> rw [h] <;> rfl
    rw [hchar, sentCharacters_get hx, Option.map_some, bits_eq]

end Sys2Proof.Machine
end

section
/-! A break (R152, R153, R144): it ends the session as an UNBIND does, empties its port, and is over when the line is high
again. -/

namespace Sys2Proof.Machine

/-! ### The session's part -/

/-- A BOUND station is torn down, and its port with it (R144, R145). -/
theorem breakSession_bound {s : State} {p : StationNo} (h : (s.station p).session = .bound) :
    s.breakSession p = (s.teardown p false).setPort p ((s.port p).teardown false) := by
  rw [State.breakSession, h]
  dsimp only
  rw [State.portTeardown, teardown_port_self]

/-- A LAPSED station becomes UNBOUND, and an UNBOUND one is unchanged: only the station's record differs (R144). -/
theorem breakSession_not_bound {s : State} {p : StationNo} (h : (s.station p).session ≠ .bound) :
    s.breakSession p = s.setStation p ((s.breakSession p).station p) := by
  unfold State.breakSession
  cases hs : (s.station p).session with
  | bound => exact absurd hs h
  | lapsed => exact (congrArg (s.setStation p) (State.setStation_station_self ..)).symm
  | unbound => exact (State.setStation_self_same s p).symm

theorem breakSession_lapsed {s : State} {p : StationNo} (h : (s.station p).session = .lapsed) :
    (s.breakSession p).station p = { s.station p with
      session := .unbound, number := none, leasePeriod := none, leaseTimer := none } := by
  rw [State.breakSession, h]
  exact (endSession_station s p p false).trans (if_pos rfl)

theorem breakSession_unbound {s : State} {p : StationNo} (h : (s.station p).session = .unbound) :
    s.breakSession p = s := by
  rw [State.breakSession, h]

/-- No other station's record changes. -/
theorem breakSession_station_ne (s : State) (p : StationNo) {n : StationNo} (hn : n ≠ p) :
    (s.breakSession p).station n = s.station n := by
  by_cases h : (s.station p).session = .bound
  · rw [breakSession_bound h, State.setPort_station, teardown_station, if_neg hn]
  · rw [breakSession_not_bound h, State.setStation_station_ne _ _ _ hn]

/-! ### The port's part (R153) -/

/-- A break leaves nothing of what a teardown would have kept, so that it empties the port alike (R153, R161). -/
theorem emptied_breakSession (s : State) (p : StationNo) :
    ((s.breakSession p).port p).emptied = (s.port p).emptied := by
  by_cases h : (s.station p).session = .bound
  · rw [breakSession_bound h, State.setPort_port_self]
    rfl
  · rw [breakSession_not_bound h]
    rfl

theorem exec_lineBreak {p : StationNo} {s : State} (hr : s.inReset = false)
    (hb : (s.port p).receiver ≠ .inBreak) :
    exec (.lineBreak p) s = .next ((s.breakSession p).setPort p (s.port p).emptied) := by
  show working s _ = _
  rw [if_neg hb, emptied_breakSession]
  simp [working, hr]

theorem exec_breakEnd {p : StationNo} {s : State} (hw : s.atWork) (hb : (s.port p).receiver = .inBreak) :
    exec (.breakEnd p) s = .next (s.setPort p { s.port p with receiver := .hunt }) := by
  simp only [exec, execBreakEnd, acting_atWork hw, if_pos hb]

/-- Settles O9, session state by session state. -/
theorem breakEndsSession : Obligations.BreakEndsSession := by
  intro p s hr
  refine ⟨fun hb => ⟨_, exec_lineBreak hr hb, ?_, fun hs => ?_, fun hs => ?_, fun hs => ?_, fun hs => ?_,
    fun n hn => ?_⟩, fun hsettled hb => exec_breakEnd ⟨hr, hsettled⟩ hb⟩
  · exact State.setPort_port_self _ _ _
  · rw [breakSession_bound hs, State.setPort_setPort, State.setPort_station, teardown_station, if_pos rfl]
    exact ⟨rfl, (teardown_tornDown s p false).setPort _⟩
  · rw [State.setPort_station, breakSession_lapsed hs]
  · rw [State.setPort_station, breakSession_unbound hs]
  · rw [State.setPort_station, State.setPort_port_self, ← breakSession_not_bound hs]
  · rw [State.setPort_station, breakSession_station_ne s p hn]

end Sys2Proof.Machine
end

section
/-! How many takings a port still needs until no request of it is due (R155), and the work that never raises that
number: everything short of a frame's arrival. -/

namespace Sys2Proof.Machine

/-! ### One port -/

/-- After at most `k` takings no request of the port is due: none is now, or its slot is empty and at most `k` requests
wait. -/
def PortRec.dueWithin (k : Nat) (r : PortRec) : Prop :=
  r.settled ∨ (r.replySlot = none ∧ r.requests.length ≤ k)

theorem dueWithin_zero (r : PortRec) : r.dueWithin 0 ↔ r.settled := by
  refine ⟨fun h => ?_, .inl⟩
  rcases h with h | ⟨-, h⟩
  · exact h
  · exact .inl (List.length_eq_zero_iff.mp (Nat.le_zero.mp h))

/-- Within the bounds of its queues a port needs at most two takings (R154, R158). -/
theorem PortRec.queued.dueWithin {r : PortRec} (h : r.queued) : r.dueWithin 2 := by
  obtain ⟨-, hrequests, hslot⟩ := h
  by_cases e : r.replySlot = none
  · exact .inr ⟨e, hrequests⟩
  · exact .inl (.inr ⟨e, mt hslot e⟩)

theorem noticed_requests (r : PortRec) (b : Byte) (x : Notice) : (r.noticed b x).requests = r.requests := by
  unfold PortRec.noticed
  dsimp only
  repeat' split
  all_goals rfl

section Port

variable {k : Nat} {r : PortRec} (h : r.dueWithin k)
include h

theorem PortRec.dueWithin.noticed (b : Byte) (x : Notice) : (r.noticed b x).dueWithin k := by
  rcases h with h | ⟨hslot, hlen⟩
  · exact .inl (settled_noticed h b x)
  · exact .inr ⟨noticed_replySlot hslot b x, by rw [noticed_requests]; exact hlen⟩

/-- A reply is begun by an idle transmitter, and in the slot it lets no request be taken (R157, R158). -/
theorem dueWithin_placed (q : PortRec) (reply : Reply) (hr : q.requests = r.requests)
    (ht : q.transmitter = if r.transmitter = .idle then .sending reply.frame 0 else r.transmitter)
    (hs : q.replySlot = if r.transmitter = .idle then none else some reply) : q.dueWithin k := by
  by_cases e : r.transmitter = .idle
  · rw [if_pos e] at hs
    rcases h with (h | ⟨-, h⟩) | ⟨-, h⟩
    · exact .inl (.inl (hr.trans h))
    · exact absurd e h
    · exact .inr ⟨hs, by rw [hr]; exact h⟩
  · rw [if_neg e] at ht hs
    exact .inl (.inr ⟨by rw [hs]; exact nofun, by rw [ht]; exact e⟩)

theorem PortRec.dueWithin.tail : ({ r with requests := r.requests.tail } : PortRec).dueWithin k := by
  rcases h with (h | h) | ⟨hslot, hlen⟩
  · exact .inl (.inl (by rw [h]; rfl))
  · exact .inl (.inr h)
  · exact .inr ⟨hslot, by rw [List.length_tail]; omega⟩

end Port

/-! ### Work after which no port needs more takings -/

/-- No port needs more takings than before, in reset or out of it as before. -/
structure NoMoreDue (s t : State) : Prop where
  inReset : t.inReset = s.inReset
  port : ∀ n k, (s.port n).dueWithin k → (t.port n).dueWithin k

theorem NoMoreDue.refl (s : State) : NoMoreDue s s := ⟨rfl, fun _ _ h => h⟩

theorem NoMoreDue.trans {s t u : State} (a : NoMoreDue s t) (b : NoMoreDue t u) : NoMoreDue s u :=
  ⟨b.inReset.trans a.inReset, fun n k h => b.port n k (a.port n k h)⟩

theorem NoMoreDue.foldl {α : Type} {f : State → α → State} (step : ∀ s x, NoMoreDue s (f s x)) (l : List α)
    (s : State) : NoMoreDue s (l.foldl f s) := foldl_frame NoMoreDue.refl NoMoreDue.trans step l s

theorem NoMoreDue.settled {s t : State} (a : NoMoreDue s t) {n : StationNo} (h : (s.port n).settled) :
    (t.port n).settled := (dueWithin_zero _).mp (a.port n 0 ((dueWithin_zero _).mpr h))

/-- Work that changes no port. -/
theorem NoMoreDue.of_same {s t : State} (hr : t.inReset = s.inReset) (hp : t.ports = s.ports) : NoMoreDue s t :=
  ⟨hr, fun n _ h => by rwa [State.port, hp]⟩

theorem OnlyLines.noMoreDue {s t : State} (a : OnlyLines s t) : NoMoreDue s t := .of_same a.inReset a.ports

theorem noMoreDue_setPort (s : State) (n : StationNo) {r : PortRec}
    (h : ∀ k, (s.port n).dueWithin k → r.dueWithin k) : NoMoreDue s (s.setPort n r) := by
  refine ⟨rfl, fun m k hm => ?_⟩
  rw [State.setPort_port]
  split
  · rename_i e
    exact h k (e ▸ hm)
  · exact hm

theorem noMoreDue_setStation (s : State) (n : StationNo) (r : StationRec) : NoMoreDue s (s.setStation n r) :=
  .of_same rfl rfl

theorem noMoreDue_setTb (s : State) (b : Timebase) : NoMoreDue s { s with tb := b } := .of_same rfl rfl

theorem noMoreDue_portTeardown (s : State) (n : StationNo) (keep : Bool) : NoMoreDue s (s.portTeardown n keep) :=
  noMoreDue_setPort s n fun _ _ => .inl (.inl rfl)

/-! ### Notices and grants -/

theorem noMoreDue_appendNotice (s : State) (n : StationNo) (x : Notice) : NoMoreDue s (s.appendNotice n x) := by
  cases hb : s.isBound n with
  | false => rw [appendNotice_unbound hb]; exact .refl s
  | true => rw [appendNotice_bound hb]; exact noMoreDue_setPort s n fun _ h => h.noticed _ x

theorem noMoreDue_appendNotices (s : State) (who : StationNo → Bool) (x : Notice) :
    NoMoreDue s (s.appendNotices who x) := .foldl (fun u n => noMoreDue_appendNotice u n x) _ s

theorem dueWithin_portTold {s : State} {n : StationNo} {k : Nat} (h : (s.port n).dueWithin k) (xs : List Notice) :
    (s.portTold n xs).dueWithin k := by
  unfold State.portTold
  split
  · generalize s.port n = r at h
    induction xs generalizing r with
    | nil => exact h
    | cons x xs ih => exact ih _ (h.noticed _ x)
  · exact h

/-- A grant scan tells the stations of their grants (R44). -/
theorem noMoreDue_grantScan (s : State) : NoMoreDue s s.grantScan := by
  obtain ⟨granted, hrun, -⟩ := grantScanFrom_run (s.waiting.length + 1) s
  refine ⟨(grantScan_frame s).inReset, fun n k h => ?_⟩
  have hport : s.grantScan.port n = s.portTold n _ := hrun.port n
  rw [hport]
  exact dueWithin_portTold h _

theorem noMoreDue_waiting (s : State) (l : List WaitingClaim) : NoMoreDue s { s with waiting := l } :=
  .of_same rfl rfl

theorem noMoreDue_grant (s : State) (c : Claim) : NoMoreDue s (s.grant c) := by
  rw [grant_eq]
  exact .of_same rfl rfl

theorem noMoreDue_giveUp (s : State) (c : Claim) (a : LineAction) : NoMoreDue s (s.giveUp c a) := by
  rw [giveUp_eq]
  exact .of_same rfl rfl

/-! ### Orders and trips -/

theorem noMoreDue_removeOrders (s : State) (l : List SlotNo) : NoMoreDue s (s.removeOrders l) :=
  .foldl (fun u i => .of_same (t := u.removeOrder i) rfl rfl) l s

theorem noMoreDue_cancelOrder (s : State) (i : SlotNo) : NoMoreDue s (s.cancelOrder i) := by
  unfold State.cancelOrder
  split
  · exact .refl s
  · split
    · exact (command_frame s _ _).noMoreDue.trans (.of_same rfl rfl)
    · exact .of_same rfl rfl

/-- Work that reads no request queue of a port whose slot is empty leaves that queue (`Mirrors`). -/
theorem noMoreDue_of_mirrors {s t : State} (a : Undisturbed s t) (hr : t.inReset = s.inReset)
    (h : ∀ v, Mirrors v s s → Mirrors v t t) : NoMoreDue s t := by
  refine ⟨hr, fun n k hn => ?_⟩
  rcases hn with hn | ⟨hslot, hlen⟩
  · exact .inl (a.settled n hn)
  · have hm := h _ ⟨eq_asIf s n, hslot⟩
    have hp := (hm.port n).trans (if_pos rfl)
    have hrequests : (t.port n).requests = (s.port n).requests := by rw [hp]; rfl
    exact .inr ⟨hm.free, by rw [hrequests]; exact hlen⟩

theorem noMoreDue_fireDue (s : State) : NoMoreDue s s.fireDue :=
  noMoreDue_of_mirrors (calm_fireDue s).undisturbed (fireDue_frame s).inReset fun _ h => h.fireDue

theorem noMoreDue_fireEdge {s : State} {i : SlotNo} {a o : Order} (h : s.order i = some a) (cause : EdgeCause)
    (ho : a.station = o.station) : NoMoreDue s (s.fireEdge cause i o) :=
  noMoreDue_of_mirrors (calm_fireEdge h cause ho).undisturbed (fireEdge_frame s cause i o).inReset
    fun _ hm => hm.fireEdge cause i o

theorem noMoreDue_tripGroup (s : State) (g : GroupNo) : NoMoreDue s (s.tripGroup g) :=
  NoMoreDue.trans (t := s.setGroup g _) (.of_same rfl rfl) (.foldl (fun u l => (toSafe_frame u l).noMoreDue) _ _)

/-! ### Teardowns and expiries -/

theorem noMoreDue_teardown (s : State) (n : StationNo) (lapsed : Bool) : NoMoreDue s (s.teardown n lapsed) := by
  have hstripped : NoMoreDue s (s.stripped n lapsed) := by
    rw [stripped_eq]
    exact .of_same rfl rfl
  rw [teardown_eq]
  exact (hstripped.trans (noMoreDue_grantScan _)).trans (.of_same rfl rfl)

theorem noMoreDue_lapse (s : State) (n : StationNo) : NoMoreDue s (s.lapse n) := by
  unfold State.lapse
  split
  · exact (noMoreDue_teardown s n true).trans (noMoreDue_portTeardown _ n false)
  · exact .refl s

theorem noMoreDue_armExpiry (s : State) : NoMoreDue s s.armExpiry := by
  unfold State.armExpiry
  split
  · dsimp only
    split
    · exact (noMoreDue_setTb s _).trans (noMoreDue_appendNotice _ _ _)
    · exact noMoreDue_setTb s _
  · exact .refl s

theorem noMoreDue_expireWaits (s : State) : NoMoreDue s s.expireWaits := by
  unfold State.expireWaits
  split
  · exact .refl s
  · exact ((noMoreDue_waiting s _).trans (.foldl (fun u w => noMoreDue_appendNotice u _ _) _ _)).trans
      (noMoreDue_grantScan _)

theorem noMoreDue_expireOwed (s : State) : NoMoreDue s s.expireOwed :=
  ((noMoreDue_armExpiry s).trans (noMoreDue_expireWaits _)).trans (.foldl noMoreDue_lapse _ _)

end Sys2Proof.Machine
end

section
/-! The owners of requests and the number of takings that a port needs (R155): no owner raises it. Most change no port. -/

namespace Sys2Proof.Machine

section Owners

variable (p : StationNo) (f : RequestFrame) (s : State)

theorem noMoreDue_bindOwner : NoMoreDue s (bindOwner p f s).state := by
  unfold bindOwner
  split
  · exact .refl s
  · split
    · exact .refl s
    · exact (noMoreDue_setStation s p _).trans (noMoreDue_setPort _ p fun _ h => h)

theorem noMoreDue_portStatusOwner : NoMoreDue s (portStatusOwner p f s).state := by
  unfold portStatusOwner
  split
  · dsimp only
    split
    · exact noMoreDue_setPort s p fun _ h => h
    · exact .refl s
  · exact .refl s

theorem noMoreDue_timeStartImmediateOwner : NoMoreDue s (timeStartImmediateOwner p f s).state := by
  unfold timeStartImmediateOwner
  split
  · exact .refl s
  · exact (noMoreDue_setTb s _).trans (noMoreDue_appendNotices _ _ _)

theorem noMoreDue_timeStartOnMarkOwner : NoMoreDue s (timeStartOnMarkOwner p f s).state := by
  unfold timeStartOnMarkOwner
  split
  · exact .refl s
  · exact noMoreDue_setTb s _

theorem noMoreDue_timeStopOwner : NoMoreDue s (timeStopOwner p f s).state := by
  unfold timeStopOwner State.halt
  split
  · exact .refl s
  · dsimp only
    split
    all_goals exact .of_same rfl rfl

theorem noMoreDue_claimOwner : NoMoreDue s (claimOwner p f s).state := by
  unfold claimOwner
  split
  · exact .refl s
  · split
    · exact NoMoreDue.trans (t := { s with claimCounter := s.nextClaimId }) (.of_same rfl rfl) (noMoreDue_grant _ _)
    · split
      · exact .refl s
      · split
        · exact .refl s
        · exact .of_same rfl rfl

theorem noMoreDue_releaseOwner : NoMoreDue s (releaseOwner p f s).state := by
  unfold releaseOwner
  split
  · exact .refl s
  · split
    · exact ((noMoreDue_removeOrders s _).trans (noMoreDue_giveUp _ _ _)).trans (noMoreDue_grantScan _)
    · split
      · exact (noMoreDue_waiting s _).trans (noMoreDue_grantScan _)
      · exact .refl s

theorem noMoreDue_shapeOwner : NoMoreDue s (shapeOwner p f s).state := by
  unfold shapeOwner
  split
  · exact .refl s
  · split
    · exact .refl s
    · split
      · exact .refl s
      · split
        · exact .refl s
        · exact (shape_frame s _ _).noMoreDue

theorem noMoreDue_lineReadOwner : NoMoreDue s (lineReadOwner p f s).state := by
  unfold lineReadOwner
  split <;> exact .refl s

theorem noMoreDue_pairBindOwner : NoMoreDue s (pairBindOwner p f s).state := by
  unfold pairBindOwner State.bindPair
  split
  · exact .refl s
  · dsimp only
    split
    · exact .of_same rfl rfl
    · split <;> exact .of_same rfl rfl

theorem noMoreDue_pairUnbindOwner : NoMoreDue s (pairUnbindOwner p f s).state := by
  unfold pairUnbindOwner
  split
  · exact .refl s
  · exact (setPairState_frame s _ _).noMoreDue

/-- A late POST with policy FIRE fires the orders due and then its own (R69). -/
theorem noMoreDue_postOwner : NoMoreDue s (postOwner p f s).state := by
  unfold postOwner
  split
  · exact .refl s
  · unfold postArmed
    split
    · exact .refl s
    · split
      · exact .refl s
      · exact .of_same rfl rfl
  · split
    · unfold postFuture
      split
      · exact .refl s
      · exact .of_same rfl rfl
    · exact .refl s
    · exact .refl s
    · unfold postLateFire
      split
      · exact .refl s
      · exact NoMoreDue.trans (t := s.fireDue.nextPost.setOrder _ _)
          ((noMoreDue_fireDue s).trans (.of_same rfl rfl)) (noMoreDue_fireEdge (order_setOrder _ _ _) _ rfl)

theorem noMoreDue_cancelNowOwner : NoMoreDue s (cancelNowOwner p f s).state := by
  unfold cancelNowOwner
  split
  · exact .refl s
  · exact noMoreDue_cancelOrder s _

theorem noMoreDue_cancelAtEndOwner : NoMoreDue s (cancelAtEndOwner p f s).state := by
  unfold cancelAtEndOwner
  split
  · exact .refl s
  · split
    · exact .of_same rfl rfl
    · exact noMoreDue_cancelOrder s _

theorem noMoreDue_reviseOwner : NoMoreDue s (reviseOwner p f s).state := by
  unfold reviseOwner
  split
  · exact .refl s
  · split <;> exact .of_same rfl rfl

theorem noMoreDue_flushOwner : NoMoreDue s (flushOwner p f s).state := by
  unfold flushOwner
  split
  · exact .refl s
  · split
    · exact .refl s
    · exact .foldl noMoreDue_cancelOrder _ s

theorem noMoreDue_orderReadOwner : NoMoreDue s (orderReadOwner p f s).state := by
  unfold orderReadOwner
  split <;> exact .refl s

theorem noMoreDue_guardMapOwner : NoMoreDue s (guardMapOwner p f s).state := by
  have hmap : ∀ g r, NoMoreDue s (s.setGroup g r) := fun _ _ => .of_same rfl rfl
  unfold guardMapOwner
  split
  · exact .refl s
  · unfold State.remap
    dsimp only
    split
    · split
      · exact ((hmap _ _).trans (noMoreDue_tripGroup _ _)).trans (noMoreDue_appendNotices _ _ _)
      · exact hmap _ _
    · exact hmap _ _

theorem noMoreDue_rearmOwner : NoMoreDue s (rearmOwner p f s).state := by
  unfold rearmOwner
  split
  · exact .refl s
  · split
    · exact .refl s
    · split
      · exact .refl s
      · split
        · exact .refl s
        · exact NoMoreDue.trans (t := s.setGroup _ _) (.of_same rfl rfl) (noMoreDue_appendNotices _ _ _)

theorem noMoreDue_subscribeOwner : NoMoreDue s (subscribeOwner p f s).state := by
  unfold subscribeOwner
  split
  · exact .refl s
  · split
    · split
      · exact .of_same rfl rfl
      · split <;> exact .of_same rfl rfl
    · exact .of_same rfl rfl

theorem noMoreDue_unsubscribeOwner : NoMoreDue s (unsubscribeOwner p f s).state := by
  unfold unsubscribeOwner
  split
  · exact .refl s
  · split
    · exact .refl s
    · exact (noMoreDue_removeOrders s _).trans (.of_same rfl rfl)

theorem noMoreDue_readCapturesOwner : NoMoreDue s (readCapturesOwner p f s).state := by
  unfold readCapturesOwner
  split <;> exact .of_same rfl rfl

/-- No owner of a request lets a port need more takings. -/
theorem noMoreDue_rowOwner (c : Instr) : NoMoreDue s (rowOwner c p f s).state := by
  cases c with
  | bind => exact noMoreDue_bindOwner p f s
  | unbind => exact noMoreDue_teardown s p false
  | portStatus => exact noMoreDue_portStatusOwner p f s
  | timeStartImmediate => exact noMoreDue_timeStartImmediateOwner p f s
  | timeStartOnMark => exact noMoreDue_timeStartOnMarkOwner p f s
  | timeStop => exact noMoreDue_timeStopOwner p f s
  | claim => exact noMoreDue_claimOwner p f s
  | release => exact noMoreDue_releaseOwner p f s
  | shape => exact noMoreDue_shapeOwner p f s
  | lineRead => exact noMoreDue_lineReadOwner p f s
  | pairBind => exact noMoreDue_pairBindOwner p f s
  | pairUnbind => exact noMoreDue_pairUnbindOwner p f s
  | post => exact noMoreDue_postOwner p f s
  | cancelNow => exact noMoreDue_cancelNowOwner p f s
  | cancelAtEnd => exact noMoreDue_cancelAtEndOwner p f s
  | revise => exact noMoreDue_reviseOwner p f s
  | flush => exact noMoreDue_flushOwner p f s
  | orderRead => exact noMoreDue_orderReadOwner p f s
  | guardMap => exact noMoreDue_guardMapOwner p f s
  | rearm => exact noMoreDue_rearmOwner p f s
  | subscribe => exact noMoreDue_subscribeOwner p f s
  | unsubscribe => exact noMoreDue_unsubscribeOwner p f s
  | readCaptures => exact noMoreDue_readCapturesOwner p f s
  | _ => exact .refl s

theorem noMoreDue_requestOwner : NoMoreDue s (requestOwner p f s).state := by
  obtain ⟨c, -, -, -, ho⟩ := requestOwner_eq_rowOwner p f
  rw [ho]
  exact noMoreDue_rowOwner p f s c

end Owners

end Sys2Proof.Machine
end

section
/-! A request and its row (R155): whichever row of the table carries a frame, the row's owner answers as the owner of the
request does, so that a request row takes the request as the part takes it at its first instant. -/

namespace Sys2Proof.Machine

/-! ### Rows that share a request (assumption 5) -/

/-- A TIME_START whose mode is neither is refused alike by the owners of both modes. -/
theorem timeStartOnMarkOwner_eq {f : RequestFrame} (h0 : f.at 0 ≠ 0) (h1 : f.at 0 ≠ 1) (p : StationNo) (s : State) :
    timeStartOnMarkOwner p f s = timeStartImmediateOwner p f s := by
  have hrefused : ∃ outcome, timeStartRefusal s f = some outcome := by
    by_cases hs : s.tb.state = .halted
    · exact ⟨_, timeStartRefusal_value hs (.inr ⟨h0, h1⟩)⟩
    · exact ⟨_, timeStartRefusal_state hs⟩
  obtain ⟨outcome, h⟩ := hrefused
  simp only [timeStartOnMarkOwner, timeStartImmediateOwner, h]

/-- A PAIR whose operation is neither is refused alike by the owners of both operations. -/
theorem pairUnbindOwner_eq {f : RequestFrame} (h0 : f.at 1 ≠ 0) (h1 : f.at 1 ≠ 1) (p : StationNo) (s : State) :
    pairUnbindOwner p f s = pairBindOwner p f s := by
  have h : pairChecks p f s = .error .badValue := by
    unfold pairChecks
    split
    · rfl
    · exact if_pos ⟨h0, h1⟩
  simp only [pairUnbindOwner, pairBindOwner, h]

/-- A CANCEL whose mode is neither is refused alike by the owners of both modes. -/
theorem cancelAtEndOwner_eq {f : RequestFrame} (h0 : f.at 2 ≠ 0) (h1 : f.at 2 ≠ 1) (p : StationNo) (s : State) :
    cancelAtEndOwner p f s = cancelNowOwner p f s := by
  have h : cancelChecks p f s = .error .badValue := by
    unfold cancelChecks
    split
    · rfl
    · exact if_pos ⟨h0, h1⟩
  simp only [cancelAtEndOwner, cancelNowOwner, h]

/-! ### The owner of a row -/

/-- The owner of a frame's row answers a frame that passes the common checks as the request's owner does. -/
theorem rowOwner_eq_requestOwner {c : Instr} {p : StationNo} {row : RequestFrame → Bool}
    (hc : requestRow c = some (p, row)) {f : RequestFrame} (hrow : row f = true) {s : State}
    (hpass : s.commonRefusal p f = none) : rowOwner c p f s = requestOwner p f s := by
  cases c
  case timeStartImmediate | pairBind | cancelNow =>
    cases hc
    have hcode := request_of_rowOfEither hrow
    have hbyte := at_ne_of_row hcode hpass (by decide) hrow
    simp only [requestOwner, hcode, if_neg hbyte, rowOwner]
  case timeStartOnMark | pairUnbind | cancelAtEnd =>
    cases hc
    have hcode := request_of_rowOfEither hrow
    have hbyte := at_ne_of_row hcode hpass (by decide) hrow
    simp only [requestOwner, hcode, rowOwner]
    split
    · rfl
    · rename_i hother
      simp only [timeStartOnMarkOwner_eq, pairUnbindOwner_eq, cancelAtEndOwner_eq, ne_eq, hbyte, hother,
        not_false_eq_true]
  case unknownRequest =>
    cases hc
    have hcode : f.request = none := by simpa using hrow
    simp only [requestOwner, hcode, rowOwner]
  all_goals
    cases hc
    all_goals
      have hcode := request_of_rowOf hrow
      simp only [requestOwner, hcode, rowOwner]

/-! ### The taking by a row -/

/-- What an owner answers to frames that do not pass the common checks does not matter. -/
theorem execute_congr {p : StationNo} {f : RequestFrame}
    {owner other : StationNo → RequestFrame → State → OwnerReply}
    (h : ∀ u : State, u.commonRefusal p f = none → owner p f u = other p f u) (s : State) :
    s.execute p f owner = s.execute p f other := by
  unfold State.execute
  dsimp only
  split
  · rfl
  · rename_i hpass
    rw [h _ hpass]

section Served

variable {s : State} {p : StationNo} {f : RequestFrame} {row : RequestFrame → Bool} (h : s.takeable p = some f)
  (hrow : row f = true) (owner : StationNo → RequestFrame → State → OwnerReply)
include h hrow

theorem serve_replayed {r : Reply} (hr : s.replayOf p f = some r) :
    s.serve p row owner = (s.dequeue p).replay p r := by
  simp only [State.serve, h, hrow, hr, if_true]

theorem serve_executed (hr : s.replayOf p f = none) : s.serve p row owner = (s.dequeue p).execute p f owner := by
  simp only [State.serve, h, hrow, hr, if_true]

end Served

/-- The row of a request takes it as the part does at its first instant (R155). -/
theorem take_row_eq_takeHead {c : Instr} {p : StationNo} {row : RequestFrame → Bool}
    (hc : requestRow c = some (p, row)) {s : State} {f : RequestFrame} (h : s.takeable p = some f)
    (hrow : row f = true) : s.take p row (rowOwner c) = s.takeHead p := by
  have hserve : s.serve p row (rowOwner c) = s.serveHead p := by
    unfold State.serveHead
    cases hr : s.replayOf p f with
    | some r => rw [serve_replayed h hrow _ hr, serve_replayed h rfl _ hr]
    | none =>
      rw [serve_executed h hrow _ hr, serve_executed h rfl _ hr]
      exact execute_congr (fun _ hpass => rowOwner_eq_requestOwner hc hrow hpass) _
  unfold State.takeHead State.take
  rw [hserve, h, Option.any_some, Option.any_some, hrow]
  rfl

theorem takeable_of {s : State} {p : StationNo} {f : RequestFrame} (hr : s.inReset = false)
    (hslot : (s.port p).replySlot = none) (hhead : (s.port p).requests.head? = some f) :
    s.takeable p = some f := by simp [State.takeable, hr, hslot, hhead]

/-- A replayed request: the lease of a BOUND station restarts, the request leaves its queue and the cached reply is
placed (R156, R136). -/
theorem take_replayed {s : State} {p : StationNo} {f : RequestFrame} {row : RequestFrame → Bool} {r : Reply}
    (h : s.takeable p = some f) (hrow : row f = true) (howed : s.leaseOwed p = false)
    (hlast : (s.port p).lastRequest = some (f.sequence, f.code)) (hcache : (s.port p).replyCache = some r)
    (owner : StationNo → RequestFrame → State → OwnerReply) :
    s.take p row owner = (if s.isBound p then s.leased p else s).setPort p
      { s.port p with
        requests := (s.port p).requests.tail
        replySlot := if (s.port p).transmitter = .idle then none else some r
        transmitter := if (s.port p).transmitter = .idle then .sending r.frame 0 else (s.port p).transmitter } := by
  have hreplay : s.replayOf p f = some r := by rw [State.replayOf, if_pos hlast, hcache]
  have hlease : (s.dequeue p).restartIfBound p =
      (if s.isBound p then s.leased p else s).setPort p ((s.dequeue p).port p) := by
    rw [State.dequeue, State.setPort_port_self]
    unfold State.restartIfBound
    show (if s.isBound p = true then _ else _) = _
    split <;> rfl
  rw [take_not_owed howed, serve_replayed h hrow owner hreplay, replay_eq, hlease, State.setPort_setPort,
    State.dequeue, State.setPort_port_self]

end Sys2Proof.Machine
end

section
/-! The takings that come before a command (R155): each taking brings its port one nearer to the state in which no request
is due, and makes none due elsewhere, so that two on each port leave nothing that can be taken. -/

namespace Sys2Proof.Machine

/-! ### One taking -/

/-- The request at the head of the queue is replayed or executed (R155, R156). -/
theorem serveHead_cases {s : State} {p : StationNo} {f : RequestFrame} (h : s.takeable p = some f) :
    (∃ r, s.serveHead p = (s.dequeue p).replay p r) ∨ s.serveHead p = (s.dequeue p).execute p f requestOwner := by
  cases hr : s.replayOf p f with
  | some r => exact .inl ⟨r, serve_replayed h rfl _ hr⟩
  | none => exact .inr (serve_executed h rfl _ hr)

theorem noMoreDue_replied (s : State) (p : StationNo) (f : RequestFrame) (c : ReplyCode) (payload : List Byte) :
    NoMoreDue s (s.replied p f c payload) :=
  noMoreDue_setPort s p fun _ h => dueWithin_placed h _ (replyTo f c payload) rfl rfl rfl

theorem noMoreDue_replay (s : State) (p : StationNo) (r : Reply) : NoMoreDue s (s.replay p r) := by
  have hlease : NoMoreDue s (s.restartIfBound p) := by
    unfold State.restartIfBound
    split
    · exact noMoreDue_setStation s p _
    · exact .refl s
  have hport : (s.restartIfBound p).port p = s.port p := by
    unfold State.restartIfBound
    split <;> rfl
  rw [replay_eq]
  refine hlease.trans (noMoreDue_setPort _ p fun _ h => ?_)
  rw [hport] at h
  exact dueWithin_placed h _ r rfl rfl rfl

theorem noMoreDue_execute (s : State) (p : StationNo) (f : RequestFrame) :
    NoMoreDue s (s.execute p f requestOwner) := by
  have hlease : NoMoreDue s (s.restartIfCurrent p f.session) := by
    unfold State.restartIfCurrent
    split
    · exact noMoreDue_setStation s p _
    · exact .refl s
  refine hlease.trans ?_
  unfold State.execute
  dsimp only
  split
  · rw [answer_eq]
    exact noMoreDue_replied _ p f _ _
  · have howner := noMoreDue_requestOwner p f (s.restartIfCurrent p f.session)
    rw [answer_eq]
    split
    · exact (howner.trans (noMoreDue_replied _ p f _ _)).trans (noMoreDue_portTeardown _ p true)
    · exact howner.trans (noMoreDue_replied _ p f _ _)

theorem noMoreDue_dequeue (s : State) (p : StationNo) : NoMoreDue s (s.dequeue p) :=
  noMoreDue_setPort s p fun _ h => h.tail

/-- What follows when a request has left its queue makes no other due. -/
theorem noMoreDue_served {s : State} {p : StationNo} {f : RequestFrame} (h : s.takeable p = some f) :
    NoMoreDue (s.dequeue p) (s.serveHead p) := by
  rcases serveHead_cases h with ⟨r, e⟩ | e <;> rw [e]
  · exact noMoreDue_replay _ p r
  · exact noMoreDue_execute _ p f

/-! ### Takings, in general -/

/-- A way to take a request: it makes none due, and its port needs one taking less. -/
structure Lessens (take : State → StationNo → State) : Prop where
  noMore : ∀ s p, NoMoreDue s (take s p)
  less : ∀ s p k, s.inReset = false → (s.port p).dueWithin (k + 1) → ((take s p).port p).dueWithin k

theorem lessens_serveHead : Lessens State.serveHead where
  noMore s p := by
    cases h : s.takeable p with
    | none => rw [State.serveHead, State.serve, h]; exact .refl s
    | some f => exact (noMoreDue_dequeue s p).trans (noMoreDue_served h)
  less s p k hr h := by
    rcases h with h | ⟨hslot, hlen⟩
    · rw [serveHead_of_settled h]
      exact .inl h
    · cases hq : (s.port p).requests with
      | nil =>
        rw [serveHead_of_settled (.inl hq)]
        exact .inl (.inl hq)
      | cons f rest =>
        refine (noMoreDue_served (takeable_of hr hslot (f := f) (by rw [hq]; rfl))).port p k (.inr ?_)
        rw [State.dequeue, State.setPort_port_self]
        refine ⟨hslot, ?_⟩
        show (s.port p).requests.tail.length ≤ k
        rw [List.length_tail]
        omega

/-- The expiry that a request finds empties its port (R142, R161). -/
theorem lapse_settled {s : State} {p : StationNo} (h : s.leaseOwed p = true) : ((s.lapse p).port p).settled := by
  rw [lapse_of_owed h, State.setPort_port_self]
  exact .inl rfl

theorem takeHead_cases (s : State) (p : StationNo) :
    (s.leaseOwed p = true ∧ s.takeHead p = s.lapse p) ∨ s.takeHead p = s.serveHead p := by
  unfold State.takeHead State.take
  split
  · rename_i h
    exact .inl ⟨(Bool.and_eq_true_iff.mp h).1, rfl⟩
  · exact .inr rfl

theorem lessens_takeHead : Lessens State.takeHead where
  noMore s p := by
    rcases takeHead_cases s p with ⟨-, e⟩ | e <;> rw [e]
    · exact noMoreDue_lapse s p
    · exact lessens_serveHead.noMore s p
  less s p k hr h := by
    rcases takeHead_cases s p with ⟨ho, e⟩ | e <;> rw [e]
    · exact .inl (lapse_settled ho)
    · exact lessens_serveHead.less s p k hr h

namespace Lessens

variable {take : State → StationNo → State} (w : Lessens take)
include w

theorem twice (s : State) (p : StationNo) : NoMoreDue s (take (take s p) p) :=
  (w.noMore s p).trans (w.noMore _ p)

/-- Two takings on each port of the list, and on no other port a request due, leave none due. -/
theorem settled_foldl : ∀ (l : List StationNo) {s : State}, s.inReset = false →
    (∀ n, (s.port n).dueWithin 2) → (∀ n, n ∉ l → (s.port n).settled) →
    (l.foldl (fun u p => take (take u p) p) s).settled
  | [], _, _, _, hrest => fun n => hrest n List.not_mem_nil
  | p :: l, s, hr, htwo, hrest => by
    have hstep := w.twice s p
    have hp : ((take (take s p) p).port p).settled :=
      (dueWithin_zero _).mp (w.less _ p 0 ((w.noMore s p).inReset.trans hr) (w.less s p 1 hr (htwo p)))
    refine settled_foldl l (hstep.inReset.trans hr) (fun n => hstep.port n 2 (htwo n)) fun n hn => ?_
    by_cases e : n = p
    · rw [e]
      exact hp
    · exact hstep.settled (hrest n (by rw [List.mem_cons]; exact not_or.mpr ⟨e, hn⟩))

/-- Two takings on each port leave none due where no queue holds more than two requests (R154). -/
theorem settled_foldl_finRange {s : State} (hr : s.inReset = false) (h : ∀ n, (s.port n).dueWithin 2) :
    ((List.finRange 4).foldl (fun u p => take (take u p) p) s).settled :=
  w.settled_foldl _ hr h fun n hn => absurd (List.mem_finRange n) hn

end Lessens

/-! ### All takings that come before a command -/

theorem queueLaw_dueWithin {s : State} (h : s.queueLaw) (n : StationNo) : (s.port n).dueWithin 2 :=
  PortRec.queued.dueWithin (h n)

theorem takeDue_settled {s : State} (hr : s.inReset = false) (h : s.queueLaw) : s.takeDue.settled :=
  lessens_takeHead.settled_foldl_finRange hr (queueLaw_dueWithin h)

theorem noMoreDue_takeDue (s : State) : NoMoreDue s s.takeDue := by
  unfold State.takeDue
  exact .foldl lessens_takeHead.twice _ s

/-- While power-on reset lasts nothing is taken (R177). -/
theorem takeDue_of_inReset {s : State} (h : s.inReset = true) : s.takeDue = s := by
  have hnone : ∀ p, (s.takeHead p).takeHead p = s := fun p => by
    have htake : s.takeHead p = s := take_inReset h p _ _
    rw [htake, htake]
  exact List.foldl_fixed' hnone _

theorem serveDue_settled {s : State} (hr : s.inReset = false) (h : ∀ n, (s.port n).dueWithin 2) :
    s.serveDue.settled := lessens_serveHead.settled_foldl_finRange hr h

theorem noMoreDue_leaseUnitEnds (s : State) : NoMoreDue s s.leaseUnitEnds := .of_same rfl rfl

/-- The requests that meet a lease boundary are all served at it (R143). -/
theorem meetBoundary_settled {s : State} (hr : s.inReset = false) (h : s.queueLaw) : s.meetBoundary.settled := by
  have hbefore : NoMoreDue s s.expireOwed.leaseUnitEnds := 
    (noMoreDue_expireOwed s).trans (noMoreDue_leaseUnitEnds _)
  have hserved := serveDue_settled (hbefore.inReset.trans hr) fun n => hbefore.port n 2 (queueLaw_dueWithin h n)
  unfold State.meetBoundary
  dsimp only
  generalize s.expireOwed.leaseUnitEnds.serveDue = u at hserved ⊢
  split <;> exact hserved

/-- Ports without a request due have nothing taken. -/
theorem foldl_takeHead_of_settled {s : State} : ∀ {l : List StationNo}, (∀ n ∈ l, (s.port n).settled) →
    l.foldl (fun u p => (u.takeHead p).takeHead p) s = s
  | [], _ => rfl
  | p :: l, h => by
    have hp := takeHead_of_settled (h p List.mem_cons_self)
    rw [List.foldl_cons, hp, hp]
    exact foldl_takeHead_of_settled fun n hn => h n (List.mem_cons_of_mem p hn)

/-- Where one port alone has requests due, the takings are its own (R155). -/
theorem takeDue_of_one {s : State} {p : StationNo} (hother : ∀ n, n ≠ p → (s.port n).settled) :
    s.takeDue = (s.takeHead p).takeHead p := by
  obtain ⟨before, after, hsplit⟩ := List.append_of_mem (List.mem_finRange p)
  have hnodup := List.nodup_finRange 4
  rw [hsplit, List.nodup_middle, List.nodup_cons, List.mem_append, not_or] at hnodup
  obtain ⟨⟨hbefore, hafter⟩, -⟩ := hnodup
  have htaken := lessens_takeHead.twice s p
  rw [State.takeDue, hsplit, List.foldl_append, List.foldl_cons,
    foldl_takeHead_of_settled fun n hn => hother n fun e => hbefore (e ▸ hn),
    foldl_takeHead_of_settled fun n hn => htaken.settled (hother n fun e => hafter (e ▸ hn))]

/-! ### Commands that requests come before -/

/-- Every such command but the lease boundary acts on what the takings leave. -/
theorem exec_eq_acting {c : Instr} (h : takesFirst c) (hc : c ≠ .leaseBoundary) :
    ∃ f, ∀ s, exec c s = acting s f := by
  obtain ⟨hrow, hbreak, hexpiry, hbegin, hend⟩ := h
  cases c with
  | frameComplete | frameEndEarly | breakEnd | transmitEnd | tick | firing | gapCompletion | markRisingEdge
  | armTimerExpiry | waitExpiry | guardActivation | guardDeactivation | captureEdge | filterClose
  | characterReceived =>
    simp only [exec, execFrameComplete, execFrameEndEarly, execBreakEnd, execTransmitEnd, execTick, execFiring,
      execGapCompletion, execMarkRisingEdge, execArmTimerExpiry, execWaitExpiry, execGuardActivation,
      execGuardDeactivation, execCaptureEdge, execFilterClose, execCharacterReceived]
    exact ⟨_, fun _ => rfl⟩
  | lineBreak p => exact absurd rfl (hbreak p)
  | leaseBoundary => exact absurd rfl hc
  | leaseExpiry n => exact absurd rfl (hexpiry n)
  | resetBegin => exact absurd rfl hbegin
  | powerOnResetEnd a b x y => exact absurd rfl (hend a b x y)
  | _ => cases hrow

theorem acting_takeDue {s : State} (h : s.queueLaw) (f : State → State) : acting s f = acting s.takeDue f := by
  cases hr : s.inReset with
  | true => rw [takeDue_of_inReset hr]
  | false =>
    rw [acting_atWork ⟨(noMoreDue_takeDue s).inReset.trans hr, takeDue_settled hr h⟩]
    simp [acting, working, hr]

/-- Settles O2: a request row takes as the part does at the first instant, a replay leaves the cached reply, and the
takings before a command leave no request due. -/
theorem replayAnswersFromCache : Obligations.ReplayAnswersFromCache := by
  refine ⟨fun c p row s f r hc hr hslot hhead hrow howed hlast hcache => ?_,
    fun c p row s f hc hr hslot hhead hrow => ?_, fun c s h hc hq => ?_, fun s hr hq => ?_,
    fun s hr hq => takeDue_settled hr hq, fun s p hother => takeDue_of_one hother, fun s hp => ?_⟩
  · rw [exec_requestRow hc, take_replayed (takeable_of hr hslot hhead) hrow howed hlast hcache]
  · rw [exec_requestRow hc, take_row_eq_takeHead hc (takeable_of hr hslot hhead) hrow]
  · obtain ⟨f, hf⟩ := exec_eq_acting h hc
    rw [hf, hf, ← acting_takeDue hq]
  · exact ⟨_, exec_leaseBoundary hr, meetBoundary_settled hr hq⟩
  · have hstep : step s = acting s (fun u => u.expireOwed.characterTime) := by rw [step, hp]
    rw [hstep]
    exact ⟨fun hr => by simp [acting, working, hr], fun hr => acting_inReset hr _⟩

end Sys2Proof.Machine
end

section
/-! The common checks (R168): the first that fails gives the outcome, and nothing but the restart of a lease comes before
the reply (R135, R136). -/

namespace Sys2Proof.Machine

/-! ### What the checks read -/

/-- The common checks read the station's session state and number only. -/
theorem commonRefusal_congr {s t : State} {p : StationNo} (f : RequestFrame)
    (hs : (t.station p).session = (s.station p).session) (hn : (t.station p).number = (s.station p).number) :
    t.commonRefusal p f = s.commonRefusal p f := by
  unfold State.commonRefusal State.sessionRefusal State.isBound
  rw [hs, hn]

@[simp] theorem leasedIfCurrent_number (s : State) (p : StationNo) (f : RequestFrame) :
    ((s.leasedIfCurrent p f).station p).number = (s.station p).number := by
  unfold State.leasedIfCurrent
  split
  · rw [State.leased, State.setStation_station_self]
  · rfl

/-- The restart that comes before the checks does not change what they find (R136, R155). -/
theorem commonRefusal_taken (s : State) (p : StationNo) (f : RequestFrame) :
    ((s.leasedIfCurrent p f).dequeue p).commonRefusal p f = s.commonRefusal p f :=
  commonRefusal_congr f (leasedIfCurrent_session s p f) (leasedIfCurrent_number s p f)

/-! ### What the checks answer -/

theorem commonRefusal_unknown {p : StationNo} {s : State} {f : RequestFrame} (hcode : f.request = none) :
    s.commonRefusal p f = some .unknownRequest := by
  simp only [State.commonRefusal, hcode]

section Known

variable {p : StationNo} {s : State} {f : RequestFrame} {k : RequestCode} (hcode : f.request = some k)
include hcode

theorem commonRefusal_badFormat (hlen : f.payload.length ≠ k.payloadLength) :
    s.commonRefusal p f = some .badFormat := by
  simp only [State.commonRefusal, hcode, if_neg hlen]

variable (hlen : f.payload.length = k.payloadLength)
include hlen

/-- A request of the length of its code meets the session check (R168). -/
theorem commonRefusal_of_length : s.commonRefusal p f = s.sessionRefusal p k f.session := by
  simp only [State.commonRefusal, hcode, if_pos hlen]

theorem commonRefusal_bind (hk : k = .bind) (hs : (s.station p).session = .bound) :
    s.commonRefusal p f = some .bound := by
  subst hk
  rw [commonRefusal_of_length hcode hlen, State.sessionRefusal, if_pos ((isBound_iff s p).mpr hs)]

end Known

/-- The session check is one for all requests other than BIND and PORT_STATUS (R135): that of KEEPALIVE. -/
theorem sessionRefusal_eq_keepalive {k : RequestCode} (hbind : k ≠ .bind) (hport : k ≠ .portStatus) (s : State)
    (p : StationNo) (session : Byte) : s.sessionRefusal p k session = s.sessionRefusal p .keepalive session := by
  cases k
  case bind => exact absurd rfl hbind
  case portStatus => exact absurd rfl hport
  all_goals rfl

section Sessions

variable {p : StationNo} {s : State} {f : RequestFrame} {k : RequestCode} (hcode : f.request = some k)
  (hlen : f.payload.length = k.payloadLength) (hbind : k ≠ .bind) (hport : k ≠ .portStatus)
include hcode hlen hbind hport

theorem commonRefusal_unbound (hs : (s.station p).session = .unbound) : s.commonRefusal p f = some .notBound := by
  rw [commonRefusal_of_length hcode hlen, sessionRefusal_eq_keepalive hbind hport]
  simp only [State.sessionRefusal, hs]

theorem commonRefusal_lapsed (hs : (s.station p).session = .lapsed) : s.commonRefusal p f = some .staleSession := by
  rw [commonRefusal_of_length hcode hlen, sessionRefusal_eq_keepalive hbind hport]
  simp only [State.sessionRefusal, hs]

theorem commonRefusal_stale (hs : (s.station p).session = .bound) (hn : (s.station p).number ≠ some f.session) :
    s.commonRefusal p f = some .staleSession := by
  rw [commonRefusal_of_length hcode hlen, sessionRefusal_eq_keepalive hbind hport]
  simp only [State.sessionRefusal, hs, if_neg hn]

end Sessions

/-! ### What a refusal does -/

theorem leasedIfCurrent_of_not_bound {s : State} {p : StationNo} (hs : (s.station p).session ≠ .bound)
    (f : RequestFrame) : s.leasedIfCurrent p f = s :=
  if_neg fun h => hs ((isBound_iff s p).mp h.1)

theorem leasedIfCurrent_of_other_number {s : State} {p : StationNo} {f : RequestFrame}
    (hn : (s.station p).number ≠ some f.session) : s.leasedIfCurrent p f = s :=
  if_neg fun h => hn h.2

/-- A request that the common checks refuse, executed: the restart of the lease and the reply without payload, whoever the
owner is (R155, R168). -/
theorem execute_refused {s : State} {p : StationNo} {f : RequestFrame} {outcome : ReplyCode}
    (h : s.commonRefusal p f = some outcome) (owner : StationNo → RequestFrame → State → OwnerReply) :
    (s.dequeue p).execute p f owner = (s.leasedIfCurrent p f).answered p f outcome [] := by
  unfold State.execute
  dsimp only
  rw [restartIfCurrent_dequeue, commonRefusal_taken, h]
  exact dequeue_answer _ p f outcome []

section Row

variable {c : Instr} {p : StationNo} {row : RequestFrame → Bool} {s : State} {f : RequestFrame} {outcome : ReplyCode}
  (hc : requestRow c = some (p, row)) (hready : s.ready p f) (hrow : row f = true)
  (h : s.commonRefusal p f = some outcome)
include hc hready hrow h

/-- Every request row answers a request that the common checks refuse alike. -/
theorem exec_refused : exec c s = .next ((s.leasedIfCurrent p f).answered p f outcome []) := by
  rw [exec_requestRow hc, take_ready hready hrow, execute_refused h]

/-- Where no lease is there to restart, the reply is all. -/
theorem exec_refused_unleased (hlease : s.leasedIfCurrent p f = s) :
    exec c s = .next (s.answered p f outcome []) := by
  rw [exec_refused hc hready hrow h, hlease]

end Row

/-- Settles O3: each row refuses with the outcome of the first common check that fails; a station that is not BOUND, or
whose number the frame does not carry, has no lease restarted. -/
theorem commonChecksRefuse : Obligations.CommonChecksRefuse := by
  intro c p row s f hc hready hrow
  refine ⟨fun hcode => exec_refused hc hready hrow (commonRefusal_unknown hcode), fun k hcode =>
    ⟨fun hlen => exec_refused hc hready hrow (commonRefusal_badFormat hcode hlen), fun hlen hbind hport =>
      ⟨fun hs => ?unbound, fun hs => ?lapsed, fun hs hn => ?stale⟩, fun hlen hk hs =>
      exec_refused hc hready hrow (commonRefusal_bind hcode hlen hk hs)⟩⟩
  case unbound =>
    exact exec_refused_unleased hc hready hrow (commonRefusal_unbound hcode hlen hbind hport hs)
      (leasedIfCurrent_of_not_bound (by simp [hs]) f)
  case lapsed =>
    exact exec_refused_unleased hc hready hrow (commonRefusal_lapsed hcode hlen hbind hport hs)
      (leasedIfCurrent_of_not_bound (by simp [hs]) f)
  case stale =>
    exact exec_refused_unleased hc hready hrow (commonRefusal_stale hcode hlen hbind hport hs hn)
      (leasedIfCurrent_of_other_number hn)

end Sys2Proof.Machine
end

section
/-! The equation of `step` on a queue that is not empty. -/

namespace Sys2Proof.Machine

/-- Settles O1: a queue that is not empty falls in the second branch of `step`, where `setPending` puts the rest of the
queue into the state. -/
theorem stepRunsFrontCommand : Obligations.StepRunsFrontCommand := by
  intro c rest s hpending
  calc
    step s = exec c (s.setPending rest) := by rw [step, hpending]
    _ = exec c { s with pending := rest } := by rw [State.setPending]

end Sys2Proof.Machine
end
